-- ==== Sys2Proof/Word.lean ====
section
/-! DEFINITION. The word types of the genus CHIP-8 core (R9, R20, R23, R24, R81). -/

namespace Sys2Proof

/-- An 8-bit value: a general register, a timer, one cell of memory (R20, R27, R60). -/
abbrev Byte := BitVec 8

/-- A 16-bit value: I, pc, a stack entry, an instruction word (R23, R24, R25, R80). -/
abbrev Word := BitVec 16

/-- A 4-bit field of an instruction word (R81). -/
abbrev Nibble := BitVec 4

/-- The index of a general register, V0 .. VF: a 4-bit field (R20). -/
abbrev Reg := BitVec 4

/-- A 12-bit address field NNN (R81). -/
abbrev Addr := BitVec 12

/-- Register 15, VF: a general register and the implicit flag (R21). -/
def VF : Reg := 0xF#4

end Sys2Proof
end

