-- ==== Sys2Proof/Config.lean ====
section
/-! DEFINITION. What this hardware fixes and what it leaves free: the parameters of R8 and the font table of R62. -/

namespace Sys2Proof

/-- The order of the VF write against the result write in 8XY4, 8XY5, 8XY7 and FX1E (R8, R150). -/
inductive FlagOrder where
  /-- Write the result, then VF: the flag survives when the destination is VF. -/
  | flagLast
  /-- Write VF, then read the operands again and write the result. -/
  | flagFirst
  deriving DecidableEq, Repr

namespace Config

/-- FLAG_ORDER of this hardware (R8, R150; DESIGN CHOICE of the spec's D9, log entry 6). -/
def flagOrder : FlagOrder := .flagLast

/-- Bytes of memory: addresses 0x000 to 0xFFF (R7, R60). -/
abbrev memSize : Nat := 0x1000

/-- The program load offset and the reset value of pc (R7, R34, R69). -/
abbrev loadOffset : Nat := 0x200

/-- The largest image a load accepts: 4096 - 0x200 bytes (R7, R70). -/
abbrev loadCapacity : Nat := 3584

/-- Framebuffer columns (R7, R28). -/
abbrev fbColumns : Nat := 64

/-- Framebuffer cells: 64 columns by 32 rows (R7, R28). -/
abbrev fbCells : Nat := 2048

/-- Entries of the call stack (R7, R25). -/
abbrev stackDepth : Nat := 16

/-- Number of keys (R7, R29). -/
abbrev keyCount : Nat := 16

/-- Bytes of one font glyph (R62, R63). -/
abbrev glyphStride : Nat := 5

/-- The font glyphs of the digits 0 to 7, five bytes each from the top row down (R62). -/
def fontLow : List Byte :=
  [0xF0#8, 0x90#8, 0x90#8, 0x90#8, 0xF0#8] ++ [0x20#8, 0x60#8, 0x20#8, 0x20#8, 0x70#8] ++
  [0xF0#8, 0x10#8, 0xF0#8, 0x80#8, 0xF0#8] ++ [0xF0#8, 0x10#8, 0xF0#8, 0x10#8, 0xF0#8] ++
  [0x90#8, 0x90#8, 0xF0#8, 0x10#8, 0x10#8] ++ [0xF0#8, 0x80#8, 0xF0#8, 0x10#8, 0xF0#8] ++
  [0xF0#8, 0x80#8, 0xF0#8, 0x90#8, 0xF0#8] ++ [0xF0#8, 0x10#8, 0x20#8, 0x40#8, 0x40#8]

/-- The font glyphs of the digits 8 to F (R62). -/
def fontHigh : List Byte :=
  [0xF0#8, 0x90#8, 0xF0#8, 0x90#8, 0xF0#8] ++ [0xF0#8, 0x90#8, 0xF0#8, 0x10#8, 0xF0#8] ++
  [0xF0#8, 0x90#8, 0xF0#8, 0x90#8, 0x90#8] ++ [0xE0#8, 0x90#8, 0xE0#8, 0x90#8, 0xE0#8] ++
  [0xF0#8, 0x80#8, 0x80#8, 0x80#8, 0xF0#8] ++ [0xE0#8, 0x90#8, 0x90#8, 0x90#8, 0xE0#8] ++
  [0xF0#8, 0x80#8, 0xF0#8, 0x80#8, 0xF0#8] ++ [0xF0#8, 0x80#8, 0xF0#8, 0x80#8, 0x80#8]

/-- FONT, the 80 bytes that reset puts at 0x000 .. 0x04F (R62; PRESUMED by the spec, log entry 9). -/
def font : List Byte := fontLow ++ fontHigh

/-- The byte memory holds at an address after reset: the font at 0x000 .. 0x04F, zero above (R34, R62). -/
def resetByte (a : Nat) : Byte := font.getD a 0#8

/-- RANDOM, the byte the n-th draw of CXNN gives: a free value, nothing constrains it (R8, R162; log entry 8). -/
opaque randomByte : Nat → Byte

/-- KEYWAIT_SELECT, the raw number behind the n-th choice among the pressed keys: a free value (R8, R233; log entry 7). -/
opaque keyDraw : Nat → Nat

end Config

end Sys2Proof
end

