-- ==== Sys2Proof/Syntax.lean ====
section
/-! DEFINITION. The instructions of the genus CHIP-8 core: one constructor per row of the opcode map R86. -/

namespace Sys2Proof

/-- An instruction with its operand fields already pulled out of the word (R81, R85, R86). -/
inductive Instr where
  /-- 00E0 CLS, clear the framebuffer (R210). -/
  | cls
  /-- 00EE RET, return from subroutine (R110). -/
  | ret
  /-- 1NNN JP NNN (R111). -/
  | jp (nnn : Addr)
  /-- 2NNN CALL NNN (R112). -/
  | call (nnn : Addr)
  /-- 3XNN SE VX, NN (R130). -/
  | seImm (x : Reg) (nn : Byte)
  /-- 4XNN SNE VX, NN (R131). -/
  | sneImm (x : Reg) (nn : Byte)
  /-- 5XY0 SE VX, VY (R132). -/
  | seReg (x y : Reg)
  /-- 6XNN LD VX, NN (R151). -/
  | ldImm (x : Reg) (nn : Byte)
  /-- 7XNN ADD VX, NN (R152). -/
  | addImm (x : Reg) (nn : Byte)
  /-- 8XY0 LD VX, VY (R153). -/
  | ldReg (x y : Reg)
  /-- 8XY1 OR VX, VY (R154). -/
  | orReg (x y : Reg)
  /-- 8XY2 AND VX, VY (R155). -/
  | andReg (x y : Reg)
  /-- 8XY3 XOR VX, VY (R156). -/
  | xorReg (x y : Reg)
  /-- 8XY4 ADD VX, VY (R157). -/
  | addReg (x y : Reg)
  /-- 8XY5 SUB VX, VY (R158). -/
  | subReg (x y : Reg)
  /-- 8XY6 SHR VX (R159). `y` is the ignored field of bits 7:4, kept so that no bit of the word is lost. -/
  | shr (x : Reg) (y : Nibble)
  /-- 8XY7 SUBN VX, VY (R160). -/
  | subnReg (x y : Reg)
  /-- 8XYE SHL VX (R161). `y` is the ignored field of bits 7:4. -/
  | shl (x : Reg) (y : Nibble)
  /-- 9XY0 SNE VX, VY (R133). -/
  | sneReg (x y : Reg)
  /-- ANNN LD I, NNN (R191). -/
  | ldI (nnn : Addr)
  /-- BNNN JP V0, NNN (R113). -/
  | jpV0 (nnn : Addr)
  /-- CXNN RND VX, NN (R162). -/
  | rnd (x : Reg) (nn : Byte)
  /-- DXYN DRW VX, VY, N (R213). -/
  | drw (x y : Reg) (n : Nibble)
  /-- EX9E SKP VX (R230). -/
  | skp (x : Reg)
  /-- EXA1 SKNP VX (R231). -/
  | sknp (x : Reg)
  /-- FX07 LD VX, DT (R235). -/
  | ldFromDT (x : Reg)
  /-- FX0A LD VX, K (R233). -/
  | ldKey (x : Reg)
  /-- FX15 LD DT, VX (R236). -/
  | ldDT (x : Reg)
  /-- FX18 LD ST, VX (R237). -/
  | ldST (x : Reg)
  /-- FX1E ADD I, VX (R192). -/
  | addI (x : Reg)
  /-- FX29 LD F, VX (R194). -/
  | ldFont (x : Reg)
  /-- FX33 LD B, VX (R195). -/
  | bcd (x : Reg)
  /-- FX55 LD [I], VX (R196). -/
  | store (x : Reg)
  /-- FX65 LD VX, [I] (R197). -/
  | load (x : Reg)
  deriving DecidableEq, Repr

/-- A transition of the core, as the environment may schedule it (R270, R280, R285):
the fire of a clock, or a host operation. -/
inductive Move where
  /-- One fire of the instruction clock (R271). -/
  | instructionClock
  /-- One fire of the 60 Hz timer clock (R273). -/
  | timerClock
  /-- Reset (R300). -/
  | reset
  /-- Load(image) (R69, R70, R71). -/
  | load (image : List Byte)
  /-- Initialize(image) (R303). -/
  | initCore (image : List Byte)
  /-- Start (R304). -/
  | start
  /-- Stop (R305). -/
  | stop
  /-- SetPaused(b) (R272). -/
  | setPaused (b : Bool)
  /-- Press(k) (R286). -/
  | press (k : Nat)
  /-- Release(k) (R286). -/
  | release (k : Nat)
  /-- ReadFramebuffer (R216). -/
  | readFramebuffer
  deriving DecidableEq, Repr

end Sys2Proof
end

