-- ==== Sys2Proof/WellFormed.lean ====
section
/-! DEFINITION. The checks on instructions, program images and scheduled moves. -/

namespace Sys2Proof

/-- Every term of `Instr` is well formed: a register index is a 4-bit value, NN an 8-bit value, NNN a 12-bit value
and N a 4-bit value by the types of the fields, and every such value is an operand the encoding admits (R20, R81).
So this check refuses nothing; the checks that can refuse are those of the images and moves below. -/
def Instr.wellFormed (_ : Instr) : Bool := true

/-- A program image fits: its length is at most 4096 - 0x200 bytes (R70). -/
def imageFits (image : List Byte) : Bool := image.length ≤ Config.loadCapacity

/-- A key index names one of the 16 keys (R286). -/
def keyInRange (k : Nat) : Bool := k < Config.keyCount

/-- The core accepts the move as the host gives it: an image within capacity, a key index in [0,16)
(R70, R261, R286). A move that fails this check is rejected and reported, with no other effect. -/
def Move.wellFormed : Move → Bool
  | .load image => imageFits image
  | .initCore image => imageFits image
  | .press k => keyInRange k
  | .release k => keyInRange k
  | .instructionClock | .timerClock | .reset | .start | .stop | .setPaused _ | .readFramebuffer => true

end Sys2Proof
end

