-- ==== Sys2Proof/Machine/Memory.lean ====
section
/-! DEFINITION. Memory as a list of cells in one canonical form, and its operations (R60, R64, R69, R72). -/

namespace Sys2Proof.Machine

/-- Memory: the bytes that differ from what reset leaves, as (address, byte) cells in rising order of address. -/
abbrev Memory := List Host.Cell

/-- One byte of memory: the listed cell, else the byte reset put there (R34, R62, R72). -/
def Memory.read (m : Memory) (a : Nat) : Byte :=
  match m with
  | [] => Config.resetByte a
  | c :: rest => if c.1 = a then c.2 else Memory.read rest a

/-- Put a cell at its place in rising order of address. -/
def Memory.insertCell (c : Host.Cell) : Memory → Memory
  | [] => [c]
  | d :: rest => if c.1 < d.1 then c :: d :: rest else d :: Memory.insertCell c rest

/-- The memory with no cell at an address. -/
def Memory.eraseAt (m : Memory) (a : Nat) : Memory := m.filter fun c => c.1 != a

/-- Write one byte. A byte equal to what reset put there is not listed, so equal memories are equal lists (R64, R72). -/
def Memory.write (m : Memory) (a : Nat) (v : Byte) : Memory :=
  if v = Config.resetByte a then Memory.eraseAt m a else Memory.insertCell (a, v) (Memory.eraseAt m a)

/-- Write consecutive bytes from an address up, the first byte at the lowest address (R69, R195, R196). -/
def Memory.writeList (m : Memory) (a : Nat) : List Byte → Memory
  | [] => m
  | v :: rest => Memory.writeList (Memory.write m a v) (a + 1) rest

/-- Read n consecutive bytes from an address up (R197, R213). -/
def Memory.readList (m : Memory) (a : Nat) : Nat → List Byte
  | 0 => []
  | n + 1 => Memory.read m a :: Memory.readList m (a + 1) n

/-- The canonical form: addresses strictly rising and inside the 4096 bytes, no cell equal to its reset byte. -/
def Memory.wf : Memory → Bool
  | [] => true
  | c :: rest =>
    decide (c.1 < Config.memSize) && decide (c.2 ≠ Config.resetByte c.1) &&
      rest.all (fun d => decide (c.1 < d.1)) && Memory.wf rest

end Sys2Proof.Machine
end

