-- ==== Sys2Proof/Machine/State.lean ====
section
/-! DEFINITION. The state of the core (R20 to R35), the outcomes of a step (R250) and the state after reset (R34). -/

namespace Sys2Proof.Machine

/-- The faults of a step (R250, codes 3 to 8). Taking one is `State.report`: a next state with no change of the core and one
Diagnostic (R251). No meaning and no step answers `Host.Outcome.fault`, so no fault ends a run (log entry 3). -/
inductive Fault where
  /-- Raised by `step` on a word of no instruction (R253). Safe: the spec's own outcome, with no effect but the report. -/
  | unknownOpcode
  /-- Raised by 2NNN when 16 entries are in use (R112, R254). Safe, as above. -/
  | stackOverflow
  /-- Raised by 00EE when the stack is empty (R110, R254). Safe, as above. -/
  | stackUnderflow
  /-- Raised by the fetch, DXYN, FX33, FX55 and FX65 for an address of 0x1000 or more, the lowest such one (R255). Safe. -/
  | memoryBounds (addr : Nat)
  /-- Raised by EX9E and EXA1 when VX holds 16 or more (R256). Safe, as above. -/
  | keyIndex (k : Nat)
  /-- Raised by DXYN for a set pixel whose flat index has no cell (R257). Safe, as above. -/
  | drawIndex (p : Nat)
  deriving DecidableEq, Repr

/-- The outcome code of a fault (R250). -/
def Fault.code : Fault → Nat
  | .unknownOpcode => 3
  | .stackOverflow => 4
  | .stackUnderflow => 5
  | .memoryBounds _ => 6
  | .keyIndex _ => 7
  | .drawIndex _ => 8

/-- The offending address, key index or flat index, where the fault has one (R284). -/
def Fault.info : Fault → Option Nat
  | .unknownOpcode | .stackOverflow | .stackUnderflow => none
  | .memoryBounds a => some a
  | .keyIndex k => some k
  | .drawIndex p => some p

/-- Why the model has no next state. -/
inductive Refusal where
  /-- The instruction has no meaning in the model yet. Raised by no instruction of this model. Safe. -/
  | notModelled (mnemonic : String)
  /-- A Load scheduled while the clocks run: not a move the spec admits (R71). Raised by `step` when the agenda holds one.
  Safe: the model stops where the spec says nothing (log entry 11). -/
  | loadWhileRunning
  deriving DecidableEq, Repr

/-- The outcome of a step (R250). -/
inductive StepOutcome where
  /-- Code 0: the instruction finished. -/
  | completed
  /-- Code 1: FX0A with no key pressed, no progress (R233). -/
  | keyWait
  /-- Code 2: the core is paused (R272). -/
  | paused
  /-- Codes 3 to 8: a fault, with no state change (R251). -/
  | faulted (f : Fault)
  deriving DecidableEq, Repr

/-- The outcome codes of R250. -/
def StepOutcome.code : StepOutcome → Nat
  | .completed => 0
  | .keyWait => 1
  | .paused => 2
  | .faulted f => f.code

/-- The Diagnostic of a fault: its code, the faulting address, the word (absent for a fetch fault) and the offending
value where there is one (R284). -/
structure Diagnostic where
  code : Nat
  pc : Word
  word : Option Word
  info : Option Nat
  deriving DecidableEq, Repr

/-- The error of a rejected host operation (R261). -/
inductive HostError where
  /-- A load of more than 3584 bytes (R70). -/
  | loadCapacity
  /-- A press or release with an index outside [0,16) (R286). -/
  | keyInputRange
  deriving DecidableEq, Repr

/-- What the core puts on an output transaction (R280). -/
inductive Output where
  /-- CycleCompleted(pc, w) (R282). -/
  | cycleCompleted (pc w : Word)
  /-- Diagnostic(code, pc, w, info) (R284). -/
  | diagnostic (d : Diagnostic)
  /-- ToneTick (R283). -/
  | toneTick
  /-- A host operation was rejected (R261). -/
  | rejected (e : HostError)
  /-- The copy of all 2048 cells that ReadFramebuffer returns (R216). -/
  | framebuffer (cells : BitVec 2048)
  deriving DecidableEq, Repr

/-- A write below 0x200, as a model records it (R68). -/
structure LowWrite where
  pc : Word
  addr : Nat
  deriving DecidableEq, Repr

/-- The state of the core: the record at the head of 10_state.md, then the model's own bookkeeping. -/
structure State where
  /-- General registers V0 .. VF (R20). -/
  V : Vector Byte 16
  /-- Index register (R23). -/
  I : Word
  /-- Program counter (R24). -/
  pc : Word
  /-- Call stack entries (R25). -/
  STACK : Vector Word 16
  /-- Stack depth 0 .. 16 (R25). -/
  SP : Fin 17
  /-- Delay timer (R27). -/
  DT : Byte
  /-- Sound timer (R27). -/
  ST : Byte
  /-- Memory (R60). -/
  MEM : Memory
  /-- Framebuffer: bit p is cell p, row-major, 1 = set (R28). -/
  FB : BitVec 2048
  /-- Key states, true = pressed (R29). -/
  KEY : Vector Bool 16
  /-- Step is a no-op while set (R31, R272). -/
  paused : Bool
  /-- Both clocks fire only while set (R31, R271, R273). -/
  running : Bool
  /-- The model's own: the transitions the environment has scheduled before the next plain fire of the
  instruction clock (log entry 1). -/
  agenda : List Move
  /-- The model's own: how many free values have been drawn (log entries 7 and 8). -/
  draws : Nat
  /-- The model's own: the outcome of the latest transition, where it was a Step (R250; log entry 4). -/
  outcome : Option StepOutcome
  /-- The model's own: what the latest transition put out, in order (R280; log entry 4). -/
  outputs : List Output
  /-- The model's own: the sticky fault set that R260 asks of a model (log entry 5). -/
  faultSet : List Diagnostic
  /-- The model's own: the LowWrite events that R68 asks of a model, oldest first (log entry 5). -/
  lowWrites : List LowWrite
  deriving DecidableEq, Repr

/-- The state right after reset (R34, R300); `running` as Initialize leaves it (log entry 10). -/
def State.reset : State where
  V := Vector.replicate 16 0#8
  I := 0x0000#16
  pc := 0x0200#16
  STACK := Vector.replicate 16 0x0000#16
  SP := 0
  DT := 0#8
  ST := 0#8
  MEM := []
  FB := 0#2048
  KEY := Vector.replicate 16 false
  paused := false
  running := false
  agenda := []
  draws := 0
  outcome := none
  outputs := []
  faultSet := []
  lowWrites := []

end Sys2Proof.Machine
end

