-- ==== Sys2Proof/Machine/Ops.lean ====
section
/-! DEFINITION. The named operations over registers, memory, stack, framebuffer and keys, and how a fault is reported
(R10, R26, R64, R68, R251, R284). -/

namespace Sys2Proof.Machine

/-- What a meaning answers. -/
abbrev Result := Host.Outcome State Fault Refusal

/-! Registers and pc. -/

/-- V[r] (R10, R20). -/
def State.reg (s : State) (r : Reg) : Byte := s.V[r.toNat]'r.isLt

/-- V[r] <- v (R10, R20). -/
def State.setReg (s : State) (r : Reg) (v : Byte) : State := { s with V := s.V.set r.toNat v r.isLt }

/-- pc <- target (R10). -/
def State.setPc (s : State) (target : Word) : State := { s with pc := target }

/-- I <- v (R10). -/
def State.setI (s : State) (v : Word) : State := { s with I := v }

/-- DT <- v (R10). -/
def State.setDT (s : State) (v : Byte) : State := { s with DT := v }

/-- ST <- v (R10). -/
def State.setST (s : State) (v : Byte) : State := { s with ST := v }

/-- `paused` <- b (R272). -/
def State.setPaused (s : State) (b : Bool) : State := { s with paused := b }

/-- `running` <- b (R304, R305). -/
def State.setRunning (s : State) (b : Bool) : State := { s with running := b }

/-- advance(k): pc <- (pc + k) mod 2^16 (R10, R24). -/
def State.advance (s : State) (k : Nat) : State := { s with pc := s.pc + BitVec.ofNat 16 k }

/-- A skip: pc + 4 when the condition holds, pc + 2 otherwise (R84). -/
def State.skipIf (s : State) (c : Bool) : State := s.advance (if c then 4 else 2)

/-- V[0], .., V[n-1], in order (R196). -/
def State.regList (s : State) (n : Nat) : List Byte := (List.range n).map fun k => s.reg (BitVec.ofNat 4 k)

/-- Write a list of bytes to consecutive registers from V[k] up (R197). -/
def State.setRegsFrom (s : State) (k : Nat) : List Byte → State
  | [] => s
  | v :: rest => (s.setReg (BitVec.ofNat 4 k) v).setRegsFrom (k + 1) rest

/-! Memory. -/

/-- MemRead(a, 1) of an address already checked (R10, R64). -/
def State.byte (s : State) (a : Nat) : Byte := s.MEM.read a

/-- The check of n consecutive bytes from the unbounded address `base` up: MemoryBounds of the lowest address that is
0x1000 or more, if there is one (R64, R190, R255). -/
def rangeFault (base n : Nat) : Option Fault :=
  if n ≠ 0 ∧ Config.memSize ≤ base + n - 1 then some (.memoryBounds (max base Config.memSize)) else none

/-- The LowWrite events of a store of n bytes from `base` up by the instruction at pc (R68). -/
def lowWritesOf (pc : Word) (base n : Nat) : List LowWrite :=
  (((List.range n).map (base + ·)).filter (· < Config.loadOffset)).map fun a => ⟨pc, a⟩

/-- MemWrite of consecutive bytes whose addresses are already checked; writes below 0x200 are performed and recorded
(R64, R68). -/
def State.storeBytes (s : State) (base : Nat) (bytes : List Byte) : State :=
  { s with
    MEM := s.MEM.writeList base bytes
    lowWrites := s.lowWrites ++ lowWritesOf s.pc base bytes.length }

/-! Call stack. -/

/-- STACK[k] (R25). -/
def State.stackEntry (s : State) (k : Nat) : Word := (s.STACK[k]?).getD 0#16

/-- Push(a) with a free entry: STACK[SP] <- a ; SP <- SP + 1 (R26). -/
def State.push (s : State) (a : Word) : State :=
  { s with STACK := s.STACK.setIfInBounds s.SP.val a, SP := Fin.ofNat 17 (s.SP.val + 1) }

/-- The top of a stack that is not empty: STACK[SP - 1] (R25). -/
def State.top (s : State) : Word := s.stackEntry (s.SP.val - 1)

/-- Pop of a stack that is not empty: SP <- SP - 1, the entry keeps its value (R26). -/
def State.pop (s : State) : State := { s with SP := Fin.ofNat 17 (s.SP.val - 1) }

/-! Framebuffer. -/

/-- FB[p] (R10, R28). -/
def State.cell (s : State) (p : Nat) : Bool := s.FB.getLsbD p

/-- The framebuffer in which only cell p is set. -/
def cellMask (p : Nat) : BitVec 2048 := BitVec.twoPow 2048 p

/-- FB[p] <- FB[p] XOR 1 for each cell of the list (R213). -/
def State.toggleCells (s : State) (cells : List Nat) : State :=
  { s with FB := cells.foldl (fun fb p => fb ^^^ cellMask p) s.FB }

/-- FB[p] <- 0 for every p (R210). -/
def State.clearFB (s : State) : State := { s with FB := 0#2048 }

/-! Keys. -/

/-- KEY[k]; an index that names no key is not pressed (R10, R29). -/
def State.key (s : State) (k : Nat) : Bool := (s.KEY[k]?).getD false

/-- KEY[k] <- b (R286). -/
def State.setKey (s : State) (k : Nat) (b : Bool) : State := { s with KEY := s.KEY.setIfInBounds k b }

/-- The set P of the pressed keys, in rising order (R233). -/
def State.pressedKeys (s : State) : List Nat := (List.range Config.keyCount).filter s.key

/-- KEYWAIT_SELECT(P): one element of P, chosen by the n-th free value (R8, R233; log entry 7). -/
def selectKey (n : Nat) (P : List Nat) : Nat := P.getD (Config.keyDraw n % P.length) 0

/-- One more free value has been drawn (log entries 7 and 8). -/
def State.countDraw (s : State) : State := { s with draws := s.draws + 1 }

/-! Timers and the tone. -/

/-- ToneActive, the level ST != 0 (R281). -/
def State.toneActive (s : State) : Bool := s.ST != 0#8

/-! Outputs, the start of a transition, and the report of a fault. -/

/-- Put one more output out in this transition (R280). -/
def State.emit (s : State) (o : Output) : State := { s with outputs := s.outputs ++ [o] }

/-- The start of a transition: nothing is put out yet (log entry 4). -/
def State.fresh (s : State) : State := { s with outcome := none, outputs := [] }

/-- The start of an instruction's execution: Completed, unless the instruction says otherwise (R250, R252). -/
def State.beginExec (s : State) : State := { s with outcome := some .completed, outputs := [] }

/-- The same state, the step having ended in an outcome without progress (R250). -/
def State.noProgress (s : State) (o : StepOutcome) : State := { s with outcome := some o, outputs := [] }

/-- The Diagnostic of a fault raised at a state (R284). -/
def State.diagnosticOf (s : State) (w : Option Word) (f : Fault) : Diagnostic := ⟨f.code, s.pc, w, f.info⟩

/-- Taking a fault: the state is the one before the step in every field of the core, pc included, one Diagnostic is put
out, and the sticky set of the model remembers it. No state is saved and control goes nowhere (R251, R259, R260, R284). -/
def State.report (s : State) (w : Option Word) (f : Fault) : State :=
  { s with
    outcome := some (.faulted f)
    outputs := [.diagnostic (s.diagnosticOf w f)]
    faultSet := if s.diagnosticOf w f ∈ s.faultSet then s.faultSet else s.faultSet ++ [s.diagnosticOf w f] }

/-! Fetch, and the fault an instruction raises. -/

/-- The two bytes at pc, the one at the lower address first (R82). -/
def fetchBytes (s : State) : List Byte := [s.byte s.pc.toNat, s.byte (s.pc.toNat + 1)]

/-- The word at pc, big-endian (R82). -/
def fetchWord (s : State) : Word := wordOfBytes (s.byte s.pc.toNat) (s.byte (s.pc.toNat + 1))

/-- The fault an instruction raises, taken: the Diagnostic carries the word the instruction was fetched as (R251, R284). -/
def State.raise (s : State) (f : Fault) : State := s.report (some (fetchWord s)) f

/-- The end of an instruction's execution: CycleCompleted(pc_before, w) fires when the outcome is Completed (R252, R282). -/
def State.endExec (t : State) (pcBefore w : Word) : State :=
  if t.outcome = some .completed then t.emit (.cycleCompleted pcBefore w) else t

end Sys2Proof.Machine
end

