-- ==== Sys2Proof/Machine/Operands.lean ====
section
/-! DEFINITION. The operand forms: immediates, effective addresses, glyph addresses, digits, sprite pixels (R63, R81, R190,
R195, R211, R212). -/

namespace Sys2Proof.Machine

/-- zext_16(NNN): an address field as a 16-bit value (R9, R81). -/
def addrWord (nnn : Addr) : Word := nnn.setWidth 16

/-- zext_16(V): a register value as a 16-bit value (R9). -/
def byteWord (v : Byte) : Word := v.setWidth 16

/-- The effective address of the first byte an instruction touches through I, an unbounded integer (R190). -/
def State.indexAddr (s : State) : Nat := s.I.toNat

/-- How many registers V[0..X] are: X + 1 (R196, R197). -/
def regCount (x : Reg) : Nat := x.toNat + 1

/-- The glyph address of the digit in a register, 0x000 + 5*d, without masking (R63, R194). -/
def glyphAddr (v : Byte) : Word := BitVec.ofNat 16 (v.toNat * Config.glyphStride)

/-- The hundreds, tens and units digits of a byte (R195). -/
def decimalDigits (v : Byte) : List Byte :=
  [BitVec.ofNat 8 (v.toNat / 100), BitVec.ofNat 8 (v.toNat / 10 % 10), BitVec.ofNat 8 (v.toNat % 10)]

/-- FlatIndex(x, y, r, c): the flat cell index of sprite pixel (r, c), the framebuffer length subtracted once (R212). -/
def flatIndex (x y : Byte) (r c : Nat) : Nat :=
  if Config.fbCells ≤ x.toNat + c + Config.fbColumns * (y.toNat + r)
  then x.toNat + c + Config.fbColumns * (y.toNat + r) - Config.fbCells
  else x.toNat + c + Config.fbColumns * (y.toNat + r)

/-- Pixel c of a sprite row: bit 7 is the leftmost, column offset 0 (R211; PRESUMED by the spec, log entry 15). -/
def rowPixel (b : Byte) (c : Nat) : Bool := b.getLsbD (7 - c)

/-- The cells of the set pixels of sprite row r, from the left (R211, R213). -/
def rowCells (x y : Byte) (r : Nat) (b : Byte) : List Nat :=
  ((List.range 8).filter (rowPixel b)).map (flatIndex x y r)

/-- The cells of the set pixels of the sprite rows from row r down (R213). -/
def spriteCells (x y : Byte) (r : Nat) : List Byte → List Nat
  | [] => []
  | b :: rest => rowCells x y r b ++ spriteCells x y (r + 1) rest

/-- The first set pixel's index that has no cell (R212, R257). -/
def drawFault (cells : List Nat) : Option Fault :=
  (cells.find? fun p => decide (Config.fbCells ≤ p)).map .drawIndex

/-- The check of a key index held in a register: 16 or more names no key (R232, R256). -/
def keyFault (v : Byte) : Option Fault :=
  if Config.keyCount ≤ v.toNat then some (.keyIndex v.toNat) else none

end Sys2Proof.Machine
end

