-- ==== Sys2Proof/Machine/Flags.lean ====
section
/-! DEFINITION. The flag computations of VF and the order of the flag write (R21, R150, R192, R213). -/

namespace Sys2Proof.Machine

/-- A one-bit flag value as the byte written to VF: 1 or 0. -/
def flagByte (b : Bool) : Byte := if b then 1#8 else 0#8

/-- 8XY4: 1 when b > 0xFF - a, the carry taken before the add (R157). -/
def carryFlag (a b : Byte) : Byte := flagByte (decide (b.toNat > 0xFF - a.toNat))

/-- a - b: 0 when a borrow occurs, that is when b > a, else 1 (R158, R160). -/
def noBorrowFlag (a b : Byte) : Byte := flagByte (!decide (b.toNat > a.toNat))

/-- 8XY6: the least significant bit before the shift (R159). -/
def shiftRightFlag (a : Byte) : Byte := flagByte (a.getLsbD 0)

/-- 8XYE: the most significant bit before the shift (R161). -/
def shiftLeftFlag (a : Byte) : Byte := flagByte (a.getLsbD 7)

/-- FX1E: 1 when the unbounded sum passes 0xFFF (R192). -/
def indexFlag (i : Word) (a : Byte) : Byte := flagByte (decide (i.toNat + a.toNat > 0xFFF))

/-- DXYN: 1 when some cell of the draw is set before it (R213, R214). -/
def collisionFlag (s : State) (cells : List Nat) : Byte := flagByte (cells.any s.cell)

/-- Write a result and a flag in the order FLAG_ORDER says. `write` reads its operands from the state it is given, so
with `flagFirst` it reads them again after the VF write (R150). -/
def withFlag (order : FlagOrder) (flag : Byte) (write : State → State) (s : State) : State :=
  match order with
  | .flagLast => (write s).setReg VF flag
  | .flagFirst => write (s.setReg VF flag)

end Sys2Proof.Machine
end

