-- ==== Sys2Proof/Machine/Alu.lean ====
section
/-! DEFINITION. Register loads and arithmetic: 6XNN, 7XNN, 8XY0 .. 8XYE, CXNN (42_alu.md). -/

namespace Sys2Proof.Machine

/-- 6XNN: V[X] <- NN (R151). -/
def execLdImm (x : Reg) (nn : Byte) (s : State) : Result := .next ((s.setReg x nn).advance 2)

/-- 7XNN: V[X] <- (V[X] + NN) mod 2^8, no flag (R152). -/
def execAddImm (x : Reg) (nn : Byte) (s : State) : Result := .next ((s.setReg x (s.reg x + nn)).advance 2)

/-- 8XY0: V[X] <- V[Y] (R153). -/
def execLdReg (x y : Reg) (s : State) : Result := .next ((s.setReg x (s.reg y)).advance 2)

/-- 8XY1: V[X] <- V[X] OR V[Y], VF not written (R154). -/
def execOrReg (x y : Reg) (s : State) : Result := .next ((s.setReg x (s.reg x ||| s.reg y)).advance 2)

/-- 8XY2: V[X] <- V[X] AND V[Y], VF not written (R155). -/
def execAndReg (x y : Reg) (s : State) : Result := .next ((s.setReg x (s.reg x &&& s.reg y)).advance 2)

/-- 8XY3: V[X] <- V[X] XOR V[Y], VF not written (R156). -/
def execXorReg (x y : Reg) (s : State) : Result := .next ((s.setReg x (s.reg x ^^^ s.reg y)).advance 2)

/-- 8XY4 under a given FLAG_ORDER, pc left alone (R150, R157). -/
def addWith (order : FlagOrder) (x y : Reg) (s : State) : State :=
  withFlag order (carryFlag (s.reg x) (s.reg y)) (fun u => u.setReg x (u.reg x + u.reg y)) s

/-- 8XY5 under a given FLAG_ORDER, pc left alone (R150, R158). -/
def subWith (order : FlagOrder) (x y : Reg) (s : State) : State :=
  withFlag order (noBorrowFlag (s.reg x) (s.reg y)) (fun u => u.setReg x (u.reg x - u.reg y)) s

/-- 8XY7 under a given FLAG_ORDER, pc left alone (R150, R160). -/
def subnWith (order : FlagOrder) (x y : Reg) (s : State) : State :=
  withFlag order (noBorrowFlag (s.reg y) (s.reg x)) (fun u => u.setReg x (u.reg y - u.reg x)) s

/-- 8XY4: add with carry into VF (R157). -/
def execAddReg (x y : Reg) (s : State) : Result := .next ((addWith Config.flagOrder x y s).advance 2)

/-- 8XY5: subtract, VF = 1 when no borrow (R158). -/
def execSubReg (x y : Reg) (s : State) : Result := .next ((subWith Config.flagOrder x y s).advance 2)

/-- 8XY6: shift right by one, VF = the bit shifted out, always flag last; Y is not read (R159). -/
def execShr (x : Reg) (_y : Nibble) (s : State) : Result :=
  .next ((withFlag .flagLast (shiftRightFlag (s.reg x)) (fun u => u.setReg x (u.reg x >>> 1)) s).advance 2)

/-- 8XY7: reverse subtract, VF = 1 when no borrow (R160). -/
def execSubnReg (x y : Reg) (s : State) : Result := .next ((subnWith Config.flagOrder x y s).advance 2)

/-- 8XYE: shift left by one, VF = the bit shifted out, always flag last; Y is not read (R161). -/
def execShl (x : Reg) (_y : Nibble) (s : State) : Result :=
  .next ((withFlag .flagLast (shiftLeftFlag (s.reg x)) (fun u => u.setReg x (u.reg x <<< 1)) s).advance 2)

/-- CXNN: V[X] <- r AND NN for a fresh draw r, a free value (R162; log entry 8). -/
def execRnd (x : Reg) (nn : Byte) (s : State) : Result :=
  .next ((s.setReg x (Config.randomByte s.draws &&& nn)).countDraw.advance 2)

end Sys2Proof.Machine
end

