-- ==== Sys2Proof/Machine/Control.lean ====
section
/-! DEFINITION. Control transfer: 00EE, 1NNN, 2NNN, BNNN (40_control.md). -/

namespace Sys2Proof.Machine

/-- 00EE: pc <- (popped entry + 2) mod 2^16; StackUnderflow on an empty stack (R110). -/
def execRet (s : State) : Result :=
  if s.SP.val = 0 then .next (s.raise .stackUnderflow)
  else .next (s.pop.setPc (s.top + 2#16))

/-- 1NNN: pc <- NNN (R111). -/
def execJp (nnn : Addr) (s : State) : Result := .next (s.setPc (addrWord nnn))

/-- 2NNN: push the call's own address, pc <- NNN; StackOverflow with 16 entries in use (R112). -/
def execCall (nnn : Addr) (s : State) : Result :=
  if s.SP.val = Config.stackDepth then .next (s.raise .stackOverflow)
  else .next ((s.push s.pc).setPc (addrWord nnn))

/-- BNNN: pc <- (NNN + V[0]) mod 2^16 (R113). -/
def execJpV0 (nnn : Addr) (s : State) : Result :=
  .next (s.setPc (addrWord nnn + byteWord (s.reg 0#4)))

end Sys2Proof.Machine
end

