-- ==== Sys2Proof/Machine/Display.lean ====
section
/-! DEFINITION. Display: 00E0, DXYN (44_display.md). -/

namespace Sys2Proof.Machine

/-- 00E0: clear every cell; VF unchanged (R210). -/
def execCls (s : State) : Result := .next (s.clearFB.advance 2)

/-- The cells of the set pixels of the N-row sprite at I, drawn at column V[X] and row V[Y] (R211, R212, R213). -/
def State.drawCells (s : State) (x y : Reg) (n : Nibble) : List Nat :=
  spriteCells (s.reg x) (s.reg y) 0 (s.MEM.readList s.indexAddr n.toNat)

/-- DXYN: check the sprite bytes, then the cells; XOR the sprite onto the framebuffer, VF = collision. The coordinates
are read before VF is written (R213). -/
def execDrw (x y : Reg) (n : Nibble) (s : State) : Result :=
  match rangeFault s.indexAddr n.toNat with
  | some f => .next (s.raise f)
  | none =>
    match drawFault (s.drawCells x y n) with
    | some f => .next (s.raise f)
    | none =>
      .next (((s.toggleCells (s.drawCells x y n)).setReg VF (collisionFlag s (s.drawCells x y n))).advance 2)

end Sys2Proof.Machine
end

