-- ==== Sys2Proof/Machine/Index.lean ====
section
/-! DEFINITION. Index register and memory: ANNN, FX1E, FX29, FX33, FX55, FX65 (43_index_memory.md). -/

namespace Sys2Proof.Machine

/-- ANNN: I <- NNN (R191). -/
def execLdI (nnn : Addr) (s : State) : Result := .next ((s.setI (addrWord nnn)).advance 2)

/-- FX1E under a given FLAG_ORDER, pc left alone (R150, R192). -/
def addIndexWith (order : FlagOrder) (x : Reg) (s : State) : State :=
  withFlag order (indexFlag s.I (s.reg x)) (fun u => u.setI (u.I + byteWord (u.reg x))) s

/-- FX1E: I <- (I + V[X]) mod 2^16, VF = 1 when the unbounded sum passes 0xFFF (R192). -/
def execAddI (x : Reg) (s : State) : Result := .next ((addIndexWith Config.flagOrder x s).advance 2)

/-- FX29: I <- 5 * V[X], no masking (R194). -/
def execLdFont (x : Reg) (s : State) : Result := .next ((s.setI (glyphAddr (s.reg x))).advance 2)

/-- FX33: the decimal digits of V[X] to I, I+1, I+2; MemoryBounds with no byte written (R195). -/
def execBcd (x : Reg) (s : State) : Result :=
  match rangeFault s.indexAddr 3 with
  | some f => .next (s.raise f)
  | none => .next ((s.storeBytes s.indexAddr (decimalDigits (s.reg x))).advance 2)

/-- FX55: V[0..X] to I .. I+X, then I <- (I + X + 1) mod 2^16; MemoryBounds with no byte written and I kept (R196). -/
def execStore (x : Reg) (s : State) : Result :=
  match rangeFault s.indexAddr (regCount x) with
  | some f => .next (s.raise f)
  | none =>
    .next (((s.storeBytes s.indexAddr (s.regList (regCount x))).setI
      (s.I + BitVec.ofNat 16 (regCount x))).advance 2)

/-- FX65: V[0..X] from I .. I+X, then I <- (I + X + 1) mod 2^16; MemoryBounds with no register written (R197). -/
def execLoad (x : Reg) (s : State) : Result :=
  match rangeFault s.indexAddr (regCount x) with
  | some f => .next (s.raise f)
  | none =>
    .next (((s.setRegsFrom 0 (s.MEM.readList s.indexAddr (regCount x))).setI
      (s.I + BitVec.ofNat 16 (regCount x))).advance 2)

end Sys2Proof.Machine
end

