-- ==== Sys2Proof/Machine/Keys.lean ====
section
/-! DEFINITION. Keys and timers: EX9E, EXA1, FX0A, FX07, FX15, FX18 (45_keys_timers.md). -/

namespace Sys2Proof.Machine

/-- EX9E: skip if KEY[V[X]] = 1; KeyIndex when V[X] >= 16 (R230, R232). -/
def execSkp (x : Reg) (s : State) : Result :=
  match keyFault (s.reg x) with
  | some f => .next (s.raise f)
  | none => .next (s.skipIf (s.key (s.reg x).toNat))

/-- EXA1: skip if KEY[V[X]] = 0; KeyIndex when V[X] >= 16 (R231, R232). -/
def execSknp (x : Reg) (s : State) : Result :=
  match keyFault (s.reg x) with
  | some f => .next (s.raise f)
  | none => .next (s.skipIf (!s.key (s.reg x).toNat))

/-- FX0A: with no key pressed the outcome is KeyWait and nothing changes, pc included; else V[X] <- one pressed key
(R233, R234; log entry 7). -/
def execLdKey (x : Reg) (s : State) : Result :=
  if s.pressedKeys = [] then .next (s.noProgress .keyWait)
  else .next ((s.setReg x (BitVec.ofNat 8 (selectKey s.draws s.pressedKeys))).countDraw.advance 2)

/-- FX07: V[X] <- DT (R235). -/
def execLdFromDT (x : Reg) (s : State) : Result := .next ((s.setReg x s.DT).advance 2)

/-- FX15: DT <- V[X] (R236). -/
def execLdDT (x : Reg) (s : State) : Result := .next ((s.setDT (s.reg x)).advance 2)

/-- FX18: ST <- V[X] (R237). -/
def execLdST (x : Reg) (s : State) : Result := .next ((s.setST (s.reg x)).advance 2)

end Sys2Proof.Machine
end

