-- ==== Sys2Proof/Machine/Cycle.lean ====
section
/-! DEFINITION. Fetch, the Step of R252, the TimerTick of R275, the host operations, and the scheduler (60_exceptions.md,
70_reset_and_hazards.md). -/

namespace Sys2Proof.Machine

/-! Fetch and Step. -/

/-- The check of the fetch: both bytes at pc lie below 0x1000 (R82, R255). -/
def fetchFault (s : State) : Option Fault := rangeFault s.pc.toNat 2

/-- Run a decoded instruction, and fire CycleCompleted when it completes (R252, R282). No meaning of this model answers a
fault or a refusal. -/
def runInstr (s : State) (i : Instr) : Result :=
  match exec i s.beginExec with
  | .next t => .next (t.endExec s.pc (fetchWord s))
  | .fault f => .fault f
  | .refused r => .refused r

/-- Step(), in full: Paused, the fetch's MemoryBounds, UnknownOpcode, then the instruction (R252, R258). -/
def cpuStep (s : State) : Result :=
  if s.paused then .next (s.noProgress .paused)
  else
    match fetchFault s with
    | some f => .next (s.report none f)
    | none =>
      match decode (fetchBytes s) with
      | .error _ => .next (s.raise .unknownOpcode)
      | .ok (i, _) => runInstr s i

/-! The timer clock. -/

/-- A timer counted down by one, not below 0 (R276). -/
def countDown (v : Byte) : Byte := if v = 0#8 then v else v - 1#8

/-- TimerTick(): both timers toward zero, ToneTick when ST was not 0; nothing else changes (R275, R276, R277, R283). -/
def timerTick (s : State) : State :=
  { s.fresh with
    DT := countDown s.DT
    ST := countDown s.ST
    outputs := if s.ST = 0#8 then [] else [.toneTick] }

/-! Host operations. -/

/-- Reset: every piece of the core's state as R34 says, `running` kept (R300). What the model itself keeps of the run, the
agenda, the draws and the two records, is kept too (log entry 5). -/
def resetCore (s : State) : State :=
  { State.reset with
    running := s.running
    agenda := s.agenda
    draws := s.draws
    faultSet := s.faultSet
    lowWrites := s.lowWrites }

/-- Load(image): the image to 0x200 and up, or LoadCapacity and no change when it does not fit (R69, R70). -/
def loadImage (image : List Byte) (s : State) : State :=
  if imageFits image then { s with MEM := s.MEM.writeList Config.loadOffset image }
  else s.emit (.rejected .loadCapacity)

/-- Initialize(image): Reset, Load(image), `running` <- 0 (R303). -/
def initializeCore (image : List Byte) (s : State) : State :=
  (loadImage image (resetCore s)).setRunning false

/-- Press(k) and Release(k): KEY[k] <- b, or KeyInputRange and no change for an index outside [0,16) (R286). -/
def keyInput (k : Nat) (b : Bool) (s : State) : State :=
  if keyInRange k then s.setKey k b else s.emit (.rejected .keyInputRange)

/-- One transition of an agent (R270 to R273, R285). A clock that fires while `running` is 0 does nothing. -/
def transition (m : Move) (s : State) : Result :=
  match m with
  | .instructionClock => if s.running then cpuStep s else .next s.fresh
  | .timerClock => if s.running then .next (timerTick s) else .next s.fresh
  | .reset => .next (resetCore s)
  | .load image => if s.running then .refused .loadWhileRunning else .next (loadImage image s.fresh)
  | .initCore image => .next (initializeCore image s)
  | .start => .next (s.fresh.setRunning true)
  | .stop => .next (s.fresh.setRunning false)
  | .setPaused b => .next (s.fresh.setPaused b)
  | .press k => .next (keyInput k true s.fresh)
  | .release k => .next (keyInput k false s.fresh)
  | .readFramebuffer => .next (s.fresh.emit (.framebuffer s.FB))

/-- The next transition: the first scheduled move, or, when none is scheduled, a fire of the instruction clock, which is one
Step while `running` is 1 and nothing while it is 0 (R270, R271, R274, R289; log entry 1). -/
def nextTransition (s : State) : Result :=
  match s.agenda with
  | [] => transition .instructionClock s
  | m :: rest => transition m { s with agenda := rest }

/-! A word placed where the next step fetches. -/

/-- The state whose next step fetches the given word: it lies at pc, high byte first, nothing is scheduled before the
step, the clocks run and the core is not paused. A pc at which no word can be fetched is moved to 0x200 (log entry 12). -/
def placeWord (s : State) (w : Word) : State :=
  let pc : Word := if (fetchFault s).isSome then BitVec.ofNat 16 Config.loadOffset else s.pc
  { s with
    pc := pc
    MEM := s.MEM.writeList pc.toNat [hiByte w, loByte w]
    paused := false
    running := true
    agenda := [] }

end Sys2Proof.Machine
end

