-- ==== Sys2Proof/Machine/Step.lean ====
section
/-! DEFINITION. The step of the core and the word the host places for it. -/

namespace Sys2Proof.Machine

/-- One step of the model: the first scheduled move, or a fire of the instruction clock when none is scheduled (R270, R271). -/
def step (s : State) : Host.Outcome State Fault Refusal := nextTransition s

/-- The state with an opcode-table row's word stored where `step` fetches its next instruction. -/
def State.withFetchWord (s : State) (nbits w : Nat) : State := placeWord s (tableWord nbits w)

end Sys2Proof.Machine
end

