-- ==== Sys2Proof/Safety.lean ====
section
/-! DEFINITION. The terms claims use: what an instruction leaves unchanged, what a fault leaves, the invariant of the core,
and what counts as a safe run. -/

namespace Sys2Proof.Machine

/-- The parts of the state other than V and pc, for frames. -/
inductive Part where
  | index | stack | delayTimer | soundTimer | memory | framebuffer | keys | paused | running
  | agenda | draws | outcome | outputs | faultSet | lowWrites
  deriving DecidableEq, Repr

/-- A part of the state reads after as it did before; memory and the stack byte by byte and entry by entry. -/
def Keeps (p : Part) (s t : State) : Prop :=
  match p with
  | .index => t.I = s.I
  | .stack => t.SP = s.SP ∧ ∀ k, t.stackEntry k = s.stackEntry k
  | .delayTimer => t.DT = s.DT
  | .soundTimer => t.ST = s.ST
  | .memory => ∀ a, t.byte a = s.byte a
  | .framebuffer => ∀ p, t.cell p = s.cell p
  | .keys => ∀ k, t.key k = s.key k
  | .paused => t.paused = s.paused
  | .running => t.running = s.running
  | .agenda => t.agenda = s.agenda
  | .draws => t.draws = s.draws
  | .outcome => t.outcome = s.outcome
  | .outputs => t.outputs = s.outputs
  | .faultSet => t.faultSet = s.faultSet
  | .lowWrites => t.lowWrites = s.lowWrites

/-- Every part outside the list is unchanged. -/
def KeepsOthers (changed : List Part) (s t : State) : Prop := ∀ p, p ∉ changed → Keeps p s t

/-- The frame of an instruction: only pc, the listed registers and the listed parts may differ. -/
def ChangesOnly (regs : List Reg) (changed : List Part) (s t : State) : Prop :=
  (∀ r, r ∉ regs → t.reg r = s.reg r) ∧ KeepsOthers changed s t

/-- Every piece of state the spec gives the core is the same; only the model's own bookkeeping may differ (R251). -/
def SameCore (s t : State) : Prop :=
  t.V = s.V ∧ t.I = s.I ∧ t.pc = s.pc ∧ t.STACK = s.STACK ∧ t.SP = s.SP ∧ t.DT = s.DT ∧ t.ST = s.ST ∧
  t.MEM = s.MEM ∧ t.FB = s.FB ∧ t.KEY = s.KEY ∧ t.paused = s.paused ∧ t.running = s.running

/-- pc <- (pc + k) mod 2^16 (R10, R84). -/
def PcPlus (k : Nat) (s t : State) : Prop := t.pc.toNat = (s.pc.toNat + k) % 2 ^ 16

/-- Every word that matches the row decodes to the instruction with its fields (R85, R86). -/
def DecodesAs (value mask : Word) (f : Word → Instr) : Prop :=
  ∀ w : Word, w &&& mask = value → decodeWord w = .ok (f w)

/-- The instruction raises the fault at a state: its meaning, alone or run by a Step, changes nothing of the core, pc
included, and puts out exactly the one Diagnostic (R251, R284). -/
def RaisesAt (i : Instr) (f : Fault) (s : State) : Prop :=
  ∃ t, exec i s = .next t ∧ runInstr s i = .next t ∧ SameCore s t ∧ t.outcome = some (.faulted f) ∧
    t.outputs = [.diagnostic ⟨f.code, s.pc, some (fetchWord s), f.info⟩]

/-- V[0] .. V[X] (R22). -/
def regsUpTo (x : Reg) : List Reg := (List.range (regCount x)).map (BitVec.ofNat 4)

/-- The registers an instruction reads: the first column of R22. -/
def readsRegs : Instr → List Reg
  | .cls | .ret | .jp _ | .call _ | .ldI _ => []
  | .seImm x _ | .sneImm x _ => [x]
  | .seReg x y | .sneReg x y => [x, y]
  | .ldImm _ _ => []
  | .addImm x _ => [x]
  | .ldReg _ y => [y]
  | .orReg x y | .andReg x y | .xorReg x y => [x, y]
  | .addReg x y | .subReg x y | .subnReg x y => [x, y]
  | .shr x _ | .shl x _ => [x]
  | .jpV0 _ => [0#4]
  | .rnd _ _ => []
  | .drw x y _ => [x, y]
  | .skp x | .sknp x => [x]
  | .ldFromDT _ | .ldKey _ => []
  | .ldDT x | .ldST x | .addI x | .ldFont x | .bcd x => [x]
  | .store x => regsUpTo x
  | .load _ => []

/-- The registers an instruction writes: the second column of R22. -/
def writesRegs : Instr → List Reg
  | .cls | .ret | .jp _ | .call _ | .ldI _ => []
  | .seImm _ _ | .sneImm _ _ | .seReg _ _ | .sneReg _ _ => []
  | .ldImm x _ | .addImm x _ | .ldReg x _ => [x]
  | .orReg x _ | .andReg x _ | .xorReg x _ => [x]
  | .addReg x _ | .subReg x _ | .subnReg x _ => [x, VF]
  | .shr x _ | .shl x _ => [x, VF]
  | .jpV0 _ => []
  | .rnd x _ => [x]
  | .drw _ _ _ => [VF]
  | .skp _ | .sknp _ => []
  | .ldFromDT x | .ldKey x => [x]
  | .addI _ => [VF]
  | .ldDT _ | .ldST _ | .ldFont _ | .bcd _ | .store _ => []
  | .load x => regsUpTo x

/-- Two outcomes of an instruction agree in everything but register r. -/
def AgreeBut (r : Reg) (a b : Result) : Prop :=
  match a, b with
  | .next t, .next u => (∀ q, q ≠ r → u.reg q = t.reg q) ∧ { u with V := t.V } = t
  | _, _ => False

/-- Pixel (r, c) of the N-row sprite at I is set (R211). -/
def SpritePixel (s : State) (n : Nibble) (r c : Nat) : Prop :=
  r < n.toNat ∧ c < 8 ∧ (s.byte (s.indexAddr + r)).getLsbD (7 - c) = true

/-- The flat index of pixel (r, c) drawn by DXYN with coordinates V[X], V[Y] (R212). -/
def PixelIndex (s : State) (x y : Reg) (r c : Nat) : Nat :=
  if (s.reg x).toNat + c + 64 * ((s.reg y).toNat + r) ≥ 2048
  then (s.reg x).toNat + c + 64 * ((s.reg y).toNat + r) - 2048
  else (s.reg x).toNat + c + 64 * ((s.reg y).toNat + r)

/-- The invariant of the model: memory is in its canonical form, the sticky fault set is a set and holds the fault of a
faulted step, every recorded LowWrite is below 0x200, and CycleCompleted is put out exactly by a completed step. -/
structure State.Inv (s : State) : Prop where
  memory : s.MEM.wf = true
  faultsOnce : s.faultSet.Nodup
  faultKept : ∀ f, s.outcome = some (.faulted f) → ∃ d ∈ s.faultSet, d.code = f.code ∧ d.info = f.info
  lowOnly : ∀ e ∈ s.lowWrites, e.addr < Config.loadOffset
  completedFires : (∃ pc w, Output.cycleCompleted pc w ∈ s.outputs) ↔ s.outcome = some .completed

/-- A state is reached in n steps of the core. -/
def Reaches : Nat → State → State → Prop
  | 0, s, t => t = s
  | n + 1, s, t => ∃ u, step s = .next u ∧ Reaches n u t

/-- A state in which a run may be taken to have ended well: no fault is recorded. The record is sticky, so a run in which
a step faulted, or that starts after a fault, is never final (R260). -/
def State.final (s : State) : Prop := s.faultSet = []

/-- A safe run: n steps to a final state, none of which writes below 0x200 (R68, R260). -/
def SafeRun (n : Nat) (s t : State) : Prop :=
  Reaches n s t ∧ t.final ∧ t.lowWrites = s.lowWrites

end Sys2Proof.Machine
end

