-- ==== Sys2Proof/Certificates/Slice0/Obligations.lean ====
section
/-! DEFINITION. The statements about the model, for the provers. -/

open Sys2Proof Sys2Proof.Machine

/-! Reset, invariants, decoding. -/

/-- R34, R300: after Reset every piece of state holds its reset value, `running` is kept, nothing is put out, and a second
Reset changes nothing; Initialize leaves `running` 0. -/
def Obligations.ResetGivesTheResetTable : Prop :=
  ∀ s : State,
    (∀ r, (resetCore s).reg r = 0#8) ∧ (resetCore s).I = 0x0000#16 ∧ (resetCore s).pc = 0x0200#16 ∧
    (resetCore s).SP.val = 0 ∧ (∀ k, (resetCore s).stackEntry k = 0x0000#16) ∧
    (resetCore s).DT = 0#8 ∧ (resetCore s).ST = 0#8 ∧
    (∀ a, a < 80 → (resetCore s).byte a = Config.font.getD a 0#8) ∧
    (∀ a, 80 ≤ a → (resetCore s).byte a = 0#8) ∧
    (∀ p, (resetCore s).cell p = false) ∧ (∀ k, (resetCore s).key k = false) ∧
    (resetCore s).paused = false ∧ (resetCore s).running = s.running ∧ (resetCore s).outputs = [] ∧
    transition .reset s = .next (resetCore s) ∧ resetCore (resetCore s) = resetCore s ∧
    resetCore State.reset = State.reset ∧ ∀ image, (initializeCore image s).running = false

/-- The state after reset meets the invariant of the model (log entries 4, 5, 10 and 19). -/
def Obligations.ResetMeetsTheModelInvariant : Prop := State.reset.Inv

/-- Every step of the core, whichever transition the agenda makes it, keeps the invariant of the model (log entries 1, 4, 5
and 19). -/
def Obligations.EveryStepKeepsTheModelInvariant : Prop :=
  ∀ s t : State, s.Inv → step s = .next t → t.Inv

/-- From R85 and R86: decoding the word, or the bytes, of any instruction gives it back, with every operand at every value.
For 8XY6 and 8XYE, whose operand in the spec is X alone, the ignored field of bits 7 to 4 is one more field of the model's
instruction: keeping it is the model's choice (log entry 18). -/
def Obligations.DecodeOfEncodeIsTheInstruction : Prop :=
  ∀ i : Instr, decodeWord (encodeWord i) = .ok i ∧ ∀ rest, decode (encode i ++ rest) = .ok (i, rest)

/-- From R85 and R86: the word of a decoded instruction is the word decoded, so no bit of a word is dropped. For the words
8XY6 and 8XYE, whose operand in the spec is X alone, this rests on the model's choice to keep the ignored field of bits 7 to 4
in the instruction (log entry 18). -/
def Obligations.EncodeOfDecodeIsTheWord : Prop :=
  ∀ (w : Word) (i : Instr), decodeWord w = .ok i → encodeWord i = w

/-- Of the map R86, an inference the spec marks as its own (derived from R85): a word is an instruction exactly when it
matches a row of the map, that row is the instruction's own, and at most one row matches any word. -/
def Obligations.WordsAreInstructionsExactlyByTheMap : Prop :=
  ∀ w : Word,
    ((∃ i, decodeWord w = .ok i) ↔ ∃ row ∈ opcodeTable, row.matchesWord w = true) ∧
    (∀ i, decodeWord w = .ok i → opcodeRow i ∈ opcodeTable ∧ (opcodeRow i).matchesWord w = true) ∧
    (∀ a ∈ opcodeTable, ∀ b ∈ opcodeTable, a.matchesWord w = true → b.matchesWord w = true → a = b)

/-- Words written out from the opcode map R86, one or more of each family, decode to the instructions they stand for. -/
def Obligations.WrittenOutWordsDecode : Prop :=
  decodeWord 0x00EE#16 = .ok .ret ∧ decodeWord 0x2ABC#16 = .ok (.call 0xABC#12) ∧
  decodeWord 0x4A07#16 = .ok (.sneImm 0xA#4 0x07#8) ∧ decodeWord 0x9120#16 = .ok (.sneReg 0x1#4 0x2#4) ∧
  decodeWord 0x8AB7#16 = .ok (.subnReg 0xA#4 0xB#4) ∧ decodeWord 0x83FE#16 = .ok (.shl 0x3#4 0xF#4) ∧
  decodeWord 0xC30F#16 = .ok (.rnd 0x3#4 0x0F#8) ∧ decodeWord 0xF355#16 = .ok (.store 0x3#4) ∧
  decodeWord 0xD125#16 = .ok (.drw 0x1#4 0x2#4 0x5#4) ∧ decodeWord 0xE5A1#16 = .ok (.sknp 0x5#4) ∧
  decodeWord 0xF71E#16 = .ok (.addI 0x7#4) ∧ decodeWord 0x5011#16 = .error (.unknownWord 0x5011#16)

/-! The step. -/

/-- The step runs the decoded instruction. That a step with nothing scheduled is a fire of the instruction clock is the
model's choice (log entry 1), and so is that it starts with nothing put out (log entry 4); the fire is one Step (R271) and the
Step is that of R252. When the clocks run, the core is not paused and the two bytes at pc decode to an instruction, the step is
its meaning, which always answers a next state; a completed one then fires CycleCompleted with its address and word. -/
def Obligations.StepRunsTheDecodedInstruction : Prop :=
  ∀ (s : State) (i : Instr) (rest : List Byte),
    s.agenda = [] → s.running = true → s.paused = false → s.pc.toNat + 1 < 0x1000 →
    decode (fetchBytes s) = .ok (i, rest) → i.wellFormed = true →
    ∃ t, exec i s.beginExec = .next t ∧
      step s = .next (if t.outcome = some .completed then t.emit (.cycleCompleted s.pc (fetchWord s)) else t)

/-- R82: the fetch needs both bytes below 0x1000 and else raises MemoryBounds of the lowest address that is not, with no
word and no state change; else the word is the byte at pc times 0x100 plus the byte after it, at any pc, and the step runs
the instruction that word decodes to, or, when it decodes to none, is UnknownOpcode with no state change. -/
def Obligations.FetchIsBigEndianAndChecked : Prop :=
  ∀ s : State, s.paused = false →
    (0x1000 ≤ s.pc.toNat + 1 →
      ∃ t, cpuStep s = .next t ∧ SameCore s t ∧
        t.outcome = some (.faulted (.memoryBounds (if s.pc.toNat < 0x1000 then s.pc.toNat + 1 else s.pc.toNat))) ∧
        t.outputs = [.diagnostic ⟨6, s.pc, none,
          some (if s.pc.toNat < 0x1000 then s.pc.toNat + 1 else s.pc.toNat)⟩]) ∧
    (s.pc.toNat + 1 < 0x1000 →
      (fetchWord s).toNat = (s.byte s.pc.toNat).toNat * 0x100 + (s.byte (s.pc.toNat + 1)).toNat ∧
      ((∃ i, decodeWord (fetchWord s) = .ok i ∧ cpuStep s = runInstr s i) ∨
        ∃ e t, decodeWord (fetchWord s) = .error e ∧ cpuStep s = .next t ∧ SameCore s t ∧
          t.outcome = some (.faulted .unknownOpcode)))

/-- R253: a fetched word of no instruction gives UnknownOpcode, with no state change beyond the one Diagnostic, and pc does
not advance. -/
def Obligations.UnknownWordIsReportedAndNotPassed : Prop :=
  ∀ (s : State) (e : DecodeError), s.paused = false → s.pc.toNat + 1 < 0x1000 →
    decodeWord (fetchWord s) = .error e →
    ∃ t, cpuStep s = .next t ∧ SameCore s t ∧ t.outcome = some (.faulted .unknownOpcode) ∧
      t.outputs = [.diagnostic ⟨3, s.pc, some (fetchWord s), none⟩]

/-- R251: a step that ends in a fault leaves every field of the core as it was, puts out exactly its one Diagnostic and no
CycleCompleted, the fault is in the model's sticky set, and the next step ends in the same fault with the same report. -/
def Obligations.FaultedStepChangesNothingAndRepeats : Prop :=
  ∀ (s t : State) (f : Fault), cpuStep s = .next t → t.outcome = some (.faulted f) →
    SameCore s t ∧
    (∃ w, t.outputs = [.diagnostic ⟨f.code, s.pc, w, f.info⟩] ∧ ⟨f.code, s.pc, w, f.info⟩ ∈ t.faultSet) ∧
    ∃ u, cpuStep t = .next u ∧ SameCore t u ∧ u.outcome = t.outcome ∧ u.outputs = t.outputs

/-- R260: no step clears a recorded fault, and a run in which a step faulted is never final: whatever steps follow, a reset
among them, the fault is still recorded (the form of the record is the model's choice, log entry 5). -/
def Obligations.FaultedRunIsNeverFinal : Prop :=
  (∀ s t : State, step s = .next t → ∀ d ∈ s.faultSet, d ∈ t.faultSet) ∧
  ∀ (n : Nat) (s u t : State) (f : Fault), step s = .next u → u.outcome = some (.faulted f) → Reaches n u t →
    (∃ d ∈ t.faultSet, d.code = f.code ∧ d.info = f.info) ∧ ¬ t.final

/-- R250, R251: no outcome of a step is fatal: every Step answers a next state, and `step` does too, but for a Load the
agenda holds while the clocks run, which the model refuses by its own choice (R71, log entry 11). -/
def Obligations.NoOutcomeStopsTheCore : Prop :=
  (∀ s : State, ∃ t, cpuStep s = .next t) ∧
  ∀ s : State, (∃ t, step s = .next t) ∨
    (s.running = true ∧ ∃ image rest, s.agenda = .load image :: rest ∧ step s = .refused .loadWhileRunning)

/-- R282: a step fires CycleCompleted, once, with the address and word of the instruction, exactly when it completes; and
what was put out before changes nothing of a step. -/
def Obligations.CycleCompletedFiresExactlyOnCompletion : Prop :=
  ∀ s t : State, cpuStep s = .next t →
    (t.outcome = some .completed → t.outputs = [.cycleCompleted s.pc (fetchWord s)]) ∧
    (t.outcome ≠ some .completed → ∀ pc w, Output.cycleCompleted pc w ∉ t.outputs) ∧
    ∀ o, cpuStep { s with outputs := o } = .next t

/-- R272: SetPaused(b) sets the bit and nothing else; while it is set a Step has the outcome Paused with no state change
and nothing put out; the timer clock ticks on; Reset clears it. -/
def Obligations.PauseGatesStepOnly : Prop :=
  ∀ s : State,
    (∀ b, ∃ t, transition (.setPaused b) s = .next t ∧ t.paused = b ∧ ChangesOnly [] [.paused, .outcome, .outputs] s t ∧
      t.pc = s.pc) ∧
    (s.paused = true → ∃ t, cpuStep s = .next t ∧ SameCore s t ∧ t.outcome = some .paused ∧ t.outputs = []) ∧
    (s.running = true → transition .timerClock s = .next (timerTick s)) ∧
    (resetCore s).paused = false

/-- R275, R276, R277: a TimerTick takes one from each timer that is not 0, fires ToneTick when ST was not 0, and changes
nothing else. -/
def Obligations.TimerTickCountsBothTimersDown : Prop :=
  ∀ s : State,
    (timerTick s).DT.toNat = s.DT.toNat - 1 ∧ (timerTick s).ST.toNat = s.ST.toNat - 1 ∧
    (s.ST.toNat > 0 → (timerTick s).outputs = [.toneTick]) ∧ (s.ST.toNat = 0 → (timerTick s).outputs = []) ∧
    ChangesOnly [] [.delayTimer, .soundTimer, .outcome, .outputs] s (timerTick s) ∧ (timerTick s).pc = s.pc

/-- R271, R273: a fire of the instruction clock, scheduled or taken when nothing is scheduled, is one Step while `running`
is 1, a fire of the timer clock one TimerTick; while it is 0 neither changes the core (that a step takes the agenda, and fires
the instruction clock when it is empty, is the model's choice, log entries 1 and 2). -/
def Obligations.ClocksFireOnlyWhileRunning : Prop :=
  ∀ (s : State) (rest : List Move),
    (s.running = true →
      step { s with agenda := [] } = cpuStep { s with agenda := [] } ∧
      step { s with agenda := .instructionClock :: rest } = cpuStep { s with agenda := rest } ∧
      step { s with agenda := .timerClock :: rest } = .next (timerTick { s with agenda := rest })) ∧
    (s.running = false →
      (∃ t, step { s with agenda := [] } = .next t ∧ SameCore s t ∧ t.agenda = [] ∧ t.outputs = []) ∧
      ∀ m, m = Move.instructionClock ∨ m = .timerClock →
        ∃ t, step { s with agenda := m :: rest } = .next t ∧ SameCore s t ∧ t.agenda = rest ∧ t.outputs = [])

/-- R289, R305: while `running` is 0 both clocks are halted: however many steps are taken, while the host moves nothing every
piece of state is kept (that the agenda holds the moves is the model's choice, log entries 1 and 2). -/
def Obligations.StoppedClocksKeepEveryPieceOfState : Prop :=
  ∀ (n : Nat) (s t : State), s.running = false →
    (∀ m ∈ s.agenda, m = Move.instructionClock ∨ m = .timerClock) → Reaches n s t →
    SameCore s t ∧ t.faultSet = s.faultSet ∧ t.lowWrites = s.lowWrites ∧ t.draws = s.draws

/-- R286: Press and Release set one key; an index outside [0,16) is rejected with KeyInputRange and no state change. -/
def Obligations.KeyInputSetsExactlyOneKey : Prop :=
  ∀ (s : State) (k : Nat) (b : Bool) (m : Move), m = (if b then .press k else .release k) →
    ∃ t, transition m s = .next t ∧
      (k < 16 → (∀ j, t.key j = if j = k then b else s.key j) ∧ t.outputs = [] ∧ t.pc = s.pc ∧
        ChangesOnly [] [.keys, .outcome, .outputs] s t) ∧
      (16 ≤ k → SameCore s t ∧ t.outputs = [.rejected .keyInputRange])

/-- R69, R70: with the clocks stopped, a Load of at most 3584 bytes copies the image to 0x200 and up and changes nothing
else; a longer one is rejected with LoadCapacity and no state change. -/
def Obligations.LoadCopiesTheImageOrIsRejected : Prop :=
  ∀ (s : State) (image : List Byte), s.running = false →
    ∃ t, transition (.load image) s = .next t ∧
      (image.length ≤ 3584 →
        (∀ k, k < image.length → t.byte (0x200 + k) = image.getD k 0#8) ∧
        (∀ a, a < 0x200 ∨ 0x200 + image.length ≤ a → t.byte a = s.byte a) ∧ t.outputs = [] ∧ t.pc = s.pc ∧
        ChangesOnly [] [.memory, .outcome, .outputs] s t) ∧
      (3584 < image.length → SameCore s t ∧ t.outputs = [.rejected .loadCapacity])

/-- R303, R304, R305: Initialize is Reset, then Load, then `running` <- 0, a rejected Load leaving the reset state and its
report; Start sets `running`, Stop clears it, and neither changes anything else. -/
def Obligations.InitializeStartAndStop : Prop :=
  ∀ (s : State) (image : List Byte),
    (∃ t, transition (.initCore image) s = .next t ∧ t.running = false ∧
      (image.length ≤ 3584 →
        t = { resetCore s with running := false, MEM := (resetCore s).MEM.writeList 0x200 image }) ∧
      (3584 < image.length →
        t = { resetCore s with running := false, outputs := [.rejected .loadCapacity] })) ∧
    (∃ t, transition .start s = .next t ∧ t.running = true ∧ t.pc = s.pc ∧
      ChangesOnly [] [.running, .outcome, .outputs] s t) ∧
    ∃ t, transition .stop s = .next t ∧ t.running = false ∧ t.pc = s.pc ∧
      ChangesOnly [] [.running, .outcome, .outputs] s t

/-- R216: ReadFramebuffer returns all 2048 cells as they stand, and changes no state. -/
def Obligations.FramebufferReadIsACopy : Prop :=
  ∀ s : State, ∃ t cells, transition .readFramebuffer s = .next t ∧ SameCore s t ∧
    t.outputs = [.framebuffer cells] ∧ ∀ p, p < 2048 → cells.getLsbD p = s.cell p

/-! Rules about every instruction. -/

/-- The table R22, which the spec marks as derived from its instruction rules: an instruction changes no register outside its writes column, and a register outside its reads column changes
nothing of what it does to the rest of the state. -/
def Obligations.RegisterAccessIsTheTable : Prop :=
  (∀ (i : Instr) (s t : State), exec i s = .next t → ∀ r, r ∉ writesRegs i → t.reg r = s.reg r) ∧
  (∀ (i : Instr) (s : State) (r : Reg) (v : Byte), r ∉ readsRegs i →
    AgreeBut r (exec i s) (exec i (s.setReg r v)))

/-- R215: no agent changes the framebuffer but 00E0, DXYN and reset. -/
def Obligations.OnlyDrawClearAndResetChangeTheFramebuffer : Prop :=
  (∀ (i : Instr) (s t : State), exec i s = .next t → t.FB ≠ s.FB → i = .cls ∨ ∃ x y n, i = .drw x y n) ∧
  (∀ (m : Move) (s t : State), transition m s = .next t → t.FB ≠ s.FB →
    m = .instructionClock ∨ m = .reset ∨ ∃ image, m = .initCore image) ∧
  ∀ s t : State, cpuStep s = .next t → t.FB ≠ s.FB →
    decodeWord (fetchWord s) = .ok .cls ∨ ∃ x y n, decodeWord (fetchWord s) = .ok (.drw x y n)

/-- R29, R31: no instruction writes a key, `paused` or `running`, and what it does depends on neither control bit. -/
def Obligations.NoInstructionTouchesKeysOrControlBits : Prop :=
  (∀ (i : Instr) (s t : State), exec i s = .next t →
    t.KEY = s.KEY ∧ t.paused = s.paused ∧ t.running = s.running) ∧
  ∀ (i : Instr) (s : State) (p r : Bool),
    ∀ t, exec i s = .next t → exec i { s with paused := p, running := r } = .next { t with paused := p, running := r }

/-- R25: no instruction but 2NNN and 00EE writes the call stack, or does anything that depends on it. -/
def Obligations.OnlyCallAndReturnUseTheStack : Prop :=
  (∀ (i : Instr) (s t : State), exec i s = .next t → (t.STACK ≠ s.STACK ∨ t.SP ≠ s.SP) →
    i = .ret ∨ ∃ nnn, i = .call nnn) ∧
  ∀ (i : Instr) (s : State) (k : Vector Word 16) (d : Fin 17), i ≠ .ret → (∀ nnn, i ≠ .call nnn) →
    ∀ t, exec i s = .next t → exec i { s with STACK := k, SP := d } = .next { t with STACK := k, SP := d }

/-- R84: of an instruction that ends Completed, pc is pc + 2, or pc + 4 for a skip, or the target of a jump, call or return;
of one that ends in a fault or in KeyWait, pc is unchanged. -/
def Obligations.PcIsSetByExactlyOneCase : Prop :=
  ∀ (i : Instr) (s t : State), exec i s.beginExec = .next t →
    (t.outcome ≠ some .completed → t.pc = s.pc) ∧
    (t.outcome = some .completed →
      match i with
      | .jp nnn => t.pc.toNat = nnn.toNat
      | .call nnn => t.pc.toNat = nnn.toNat
      | .jpV0 nnn => t.pc.toNat = nnn.toNat + (s.reg 0#4).toNat
      | .ret => t.pc.toNat = ((s.stackEntry (s.SP.val - 1)).toNat + 2) % 2 ^ 16
      | .seImm _ _ | .sneImm _ _ | .seReg _ _ | .sneReg _ _ | .skp _ | .sknp _ => PcPlus 2 s t ∨ PcPlus 4 s t
      | _ => PcPlus 2 s t)

/-- R68: a byte below 0x200 that an instruction changes is recorded as a LowWrite of that instruction, no recorded event is
lost, and every event recorded is below 0x200. -/
def Obligations.EveryLowWriteIsRecorded : Prop :=
  ∀ (i : Instr) (s t : State), exec i s = .next t →
    (∀ a, a < 0x200 → t.byte a ≠ s.byte a → ⟨s.pc, a⟩ ∈ t.lowWrites) ∧
    ∃ new, t.lowWrites = s.lowWrites ++ new ∧ ∀ e ∈ new, e.pc = s.pc ∧ e.addr < 0x200

/-- R74 and R311, inferences the spec marks as its own: the two bytes FX55 stores from V0 and V1 are the word the next fetch at that address reads. -/
def Obligations.StoredWordIsFetched : Prop :=
  ∀ (x : Reg) (s t u : State), 1 ≤ x.toNat → s.indexAddr + x.toNat < 0x1000 → exec (.store x) s = .next t →
    u.MEM = t.MEM → u.pc = s.I →
    fetchFault u = none ∧ fetchWord u = wordOfBytes (s.reg 0#4) (s.reg 1#4)

/-- R150: for 8XY4, 8XY5, 8XY7 and FX1E the two values of FLAG_ORDER give the same state whenever no operand is VF. -/
def Obligations.FlagOrdersAgreeAwayFromVF : Prop :=
  ∀ (x y : Reg) (s : State), x ≠ VF → y ≠ VF →
    addWith .flagFirst x y s = addWith .flagLast x y s ∧ subWith .flagFirst x y s = subWith .flagLast x y s ∧
    subnWith .flagFirst x y s = subnWith .flagLast x y s ∧
    addIndexWith .flagFirst x s = addIndexWith .flagLast x s

/-- Inferences the spec marks as its own in R212 and R213: the cells of one draw are distinct, whatever the coordinates; for columns to 63 and rows to 31 every pixel
of every height has a cell. -/
def Obligations.SpriteCellsAreDistinctAndLandOnScreen : Prop :=
  ∀ (x y : Byte) (rows : List Byte), rows.length ≤ 15 →
    (spriteCells x y 0 rows).Nodup ∧
    (x.toNat ≤ 63 → y.toNat ≤ 31 → ∀ p ∈ spriteCells x y 0 rows, p < 2048)

/-! Control transfer. -/

/-- R110: 00EE. -/
def Obligations.ReturnPopsAndLandsPastTheCall : Prop :=
  DecodesAs 0x00EE#16 0xFFFF#16 (fun _ => .ret) ∧
  ∀ s : State,
    (s.SP.val = 0 → RaisesAt .ret .stackUnderflow s) ∧
    (s.SP.val ≠ 0 → ∃ t, exec .ret s = .next t ∧ t.SP.val = s.SP.val - 1 ∧
      (∀ k, t.stackEntry k = s.stackEntry k) ∧
      t.pc.toNat = ((s.stackEntry (s.SP.val - 1)).toNat + 2) % 2 ^ 16 ∧ ChangesOnly [] [.stack] s t)

/-- R111: 1NNN. -/
def Obligations.JumpSetsPc : Prop :=
  DecodesAs 0x1000#16 0xF000#16 (fun w => .jp (fieldNNN w)) ∧
  ∀ (nnn : Addr) (s : State), ∃ t, exec (.jp nnn) s = .next t ∧ t.pc.toNat = nnn.toNat ∧ ChangesOnly [] [] s t

/-- R112: 2NNN. -/
def Obligations.CallPushesItsOwnAddress : Prop :=
  DecodesAs 0x2000#16 0xF000#16 (fun w => .call (fieldNNN w)) ∧
  ∀ (nnn : Addr) (s : State),
    (s.SP.val = 16 → RaisesAt (.call nnn) .stackOverflow s) ∧
    (s.SP.val < 16 → ∃ t, exec (.call nnn) s = .next t ∧ t.stackEntry s.SP.val = s.pc ∧
      (∀ k, k ≠ s.SP.val → t.stackEntry k = s.stackEntry k) ∧ t.SP.val = s.SP.val + 1 ∧
      t.pc.toNat = nnn.toNat ∧ ChangesOnly [] [.stack] s t)

/-- R113: BNNN, always with V0; the sum never passes 0x10FE. -/
def Obligations.OffsetJumpAddsV0 : Prop :=
  DecodesAs 0xB000#16 0xF000#16 (fun w => .jpV0 (fieldNNN w)) ∧
  ∀ (nnn : Addr) (s : State), ∃ t, exec (.jpV0 nnn) s = .next t ∧
    t.pc.toNat = nnn.toNat + (s.reg 0#4).toNat ∧ t.pc.toNat ≤ 0x10FE ∧ ChangesOnly [] [] s t

/-! Skips. -/

/-- R130, R131: 3XNN and 4XNN. -/
def Obligations.ImmediateSkips : Prop :=
  DecodesAs 0x3000#16 0xF000#16 (fun w => .seImm (fieldX w) (fieldNN w)) ∧
  DecodesAs 0x4000#16 0xF000#16 (fun w => .sneImm (fieldX w) (fieldNN w)) ∧
  ∀ (x : Reg) (nn : Byte) (s : State),
    (∃ t, exec (.seImm x nn) s = .next t ∧ PcPlus (if s.reg x = nn then 4 else 2) s t ∧ ChangesOnly [] [] s t) ∧
    ∃ t, exec (.sneImm x nn) s = .next t ∧ PcPlus (if s.reg x ≠ nn then 4 else 2) s t ∧ ChangesOnly [] [] s t

/-- R132, R133: 5XY0 and 9XY0; the words with another bottom nibble are Unknown. -/
def Obligations.RegisterSkips : Prop :=
  DecodesAs 0x5000#16 0xF00F#16 (fun w => .seReg (fieldX w) (fieldY w)) ∧
  DecodesAs 0x9000#16 0xF00F#16 (fun w => .sneReg (fieldX w) (fieldY w)) ∧
  (∀ w : Word, (w &&& 0xF000#16 = 0x5000#16 ∨ w &&& 0xF000#16 = 0x9000#16) → fieldN w ≠ 0#4 →
    decodeWord w = .error (.unknownWord w)) ∧
  ∀ (x y : Reg) (s : State),
    (∃ t, exec (.seReg x y) s = .next t ∧ PcPlus (if s.reg x = s.reg y then 4 else 2) s t ∧ ChangesOnly [] [] s t) ∧
    ∃ t, exec (.sneReg x y) s = .next t ∧ PcPlus (if s.reg x ≠ s.reg y then 4 else 2) s t ∧ ChangesOnly [] [] s t

/-! Register loads and arithmetic. -/

/-- R151: 6XNN. -/
def Obligations.LoadImmediate : Prop :=
  DecodesAs 0x6000#16 0xF000#16 (fun w => .ldImm (fieldX w) (fieldNN w)) ∧
  ∀ (x : Reg) (nn : Byte) (s : State), ∃ t, exec (.ldImm x nn) s = .next t ∧ t.reg x = nn ∧ PcPlus 2 s t ∧
    ChangesOnly [x] [] s t

/-- R152: 7XNN, which writes no flag. -/
def Obligations.AddImmediateWrapsWithoutFlag : Prop :=
  DecodesAs 0x7000#16 0xF000#16 (fun w => .addImm (fieldX w) (fieldNN w)) ∧
  ∀ (x : Reg) (nn : Byte) (s : State), ∃ t, exec (.addImm x nn) s = .next t ∧
    (t.reg x).toNat = ((s.reg x).toNat + nn.toNat) % 2 ^ 8 ∧ PcPlus 2 s t ∧ ChangesOnly [x] [] s t

/-- R153: 8XY0. -/
def Obligations.CopyRegister : Prop :=
  DecodesAs 0x8000#16 0xF00F#16 (fun w => .ldReg (fieldX w) (fieldY w)) ∧
  ∀ (x y : Reg) (s : State), ∃ t, exec (.ldReg x y) s = .next t ∧ t.reg x = s.reg y ∧ PcPlus 2 s t ∧
    ChangesOnly [x] [] s t

/-- R154, R155, R156: 8XY1, 8XY2, 8XY3, bit by bit; VF is not written unless X = F. -/
def Obligations.BitwiseOperations : Prop :=
  DecodesAs 0x8001#16 0xF00F#16 (fun w => .orReg (fieldX w) (fieldY w)) ∧
  DecodesAs 0x8002#16 0xF00F#16 (fun w => .andReg (fieldX w) (fieldY w)) ∧
  DecodesAs 0x8003#16 0xF00F#16 (fun w => .xorReg (fieldX w) (fieldY w)) ∧
  ∀ (x y : Reg) (s : State),
    (∃ t, exec (.orReg x y) s = .next t ∧
      (∀ b, (t.reg x).getLsbD b = ((s.reg x).getLsbD b || (s.reg y).getLsbD b)) ∧ PcPlus 2 s t ∧
      ChangesOnly [x] [] s t) ∧
    (∃ t, exec (.andReg x y) s = .next t ∧
      (∀ b, (t.reg x).getLsbD b = ((s.reg x).getLsbD b && (s.reg y).getLsbD b)) ∧ PcPlus 2 s t ∧
      ChangesOnly [x] [] s t) ∧
    ∃ t, exec (.xorReg x y) s = .next t ∧
      (∀ b, (t.reg x).getLsbD b = ((s.reg x).getLsbD b ^^ (s.reg y).getLsbD b)) ∧ PcPlus 2 s t ∧
      ChangesOnly [x] [] s t

/-- R157: 8XY4, with the flag last, as this hardware does (log entry 6), and with the flag first. -/
def Obligations.AddSetsCarry : Prop :=
  DecodesAs 0x8004#16 0xF00F#16 (fun w => .addReg (fieldX w) (fieldY w)) ∧
  ∀ (x y : Reg) (s : State),
    (∃ t, exec (.addReg x y) s = .next t ∧
      (x ≠ VF → (t.reg x).toNat = ((s.reg x).toNat + (s.reg y).toNat) % 2 ^ 8) ∧
      (t.reg VF).toNat = (if (s.reg x).toNat + (s.reg y).toNat > 255 then 1 else 0) ∧ PcPlus 2 s t ∧
      ChangesOnly [x, VF] [] s t) ∧
    ∀ u, u = s.setReg VF (if (s.reg x).toNat + (s.reg y).toNat > 255 then 1#8 else 0#8) →
      ((addWith .flagFirst x y s).reg x).toNat = ((u.reg x).toNat + (u.reg y).toNat) % 2 ^ 8 ∧
      (x ≠ VF → (addWith .flagFirst x y s).reg VF = u.reg VF) ∧
      ChangesOnly [x, VF] [] s (addWith .flagFirst x y s)

/-- R158: 8XY5, VF = 1 when no borrow occurs, with the flag last and with the flag first. -/
def Obligations.SubtractSetsNoBorrow : Prop :=
  DecodesAs 0x8005#16 0xF00F#16 (fun w => .subReg (fieldX w) (fieldY w)) ∧
  ∀ (x y : Reg) (s : State),
    (∃ t, exec (.subReg x y) s = .next t ∧
      (x ≠ VF → (t.reg x).toNat = ((s.reg x).toNat + 2 ^ 8 - (s.reg y).toNat) % 2 ^ 8) ∧
      (t.reg VF).toNat = (if (s.reg y).toNat > (s.reg x).toNat then 0 else 1) ∧ PcPlus 2 s t ∧
      ChangesOnly [x, VF] [] s t) ∧
    ∀ u, u = s.setReg VF (if (s.reg y).toNat > (s.reg x).toNat then 0#8 else 1#8) →
      ((subWith .flagFirst x y s).reg x).toNat = ((u.reg x).toNat + 2 ^ 8 - (u.reg y).toNat) % 2 ^ 8 ∧
      (x ≠ VF → (subWith .flagFirst x y s).reg VF = u.reg VF) ∧
      ChangesOnly [x, VF] [] s (subWith .flagFirst x y s)

/-- R159: 8XY6, always flag last; every value of the Y field gives the same. -/
def Obligations.ShiftRightKeepsTheBitInVF : Prop :=
  DecodesAs 0x8006#16 0xF00F#16 (fun w => .shr (fieldX w) (fieldY w)) ∧
  ∀ (x : Reg) (y : Nibble) (s : State), ∃ t, exec (.shr x y) s = .next t ∧
    (x ≠ VF → (t.reg x).toNat = (s.reg x).toNat / 2) ∧ (t.reg VF).toNat = (s.reg x).toNat % 2 ∧ PcPlus 2 s t ∧
    ChangesOnly [x, VF] [] s t

/-- R160: 8XY7, V[Y] - V[X] with the same borrow convention, with the flag last and with the flag first. -/
def Obligations.ReverseSubtractSetsNoBorrow : Prop :=
  DecodesAs 0x8007#16 0xF00F#16 (fun w => .subnReg (fieldX w) (fieldY w)) ∧
  ∀ (x y : Reg) (s : State),
    (∃ t, exec (.subnReg x y) s = .next t ∧
      (x ≠ VF → (t.reg x).toNat = ((s.reg y).toNat + 2 ^ 8 - (s.reg x).toNat) % 2 ^ 8) ∧
      (t.reg VF).toNat = (if (s.reg x).toNat > (s.reg y).toNat then 0 else 1) ∧ PcPlus 2 s t ∧
      ChangesOnly [x, VF] [] s t) ∧
    ∀ u, u = s.setReg VF (if (s.reg x).toNat > (s.reg y).toNat then 0#8 else 1#8) →
      ((subnWith .flagFirst x y s).reg x).toNat = ((u.reg y).toNat + 2 ^ 8 - (u.reg x).toNat) % 2 ^ 8 ∧
      (x ≠ VF → (subnWith .flagFirst x y s).reg VF = u.reg VF) ∧
      ChangesOnly [x, VF] [] s (subnWith .flagFirst x y s)

/-- R161: 8XYE, always flag last; every value of the Y field gives the same. -/
def Obligations.ShiftLeftKeepsTheBitInVF : Prop :=
  DecodesAs 0x800E#16 0xF00F#16 (fun w => .shl (fieldX w) (fieldY w)) ∧
  ∀ (x : Reg) (y : Nibble) (s : State), ∃ t, exec (.shl x y) s = .next t ∧
    (x ≠ VF → (t.reg x).toNat = (s.reg x).toNat * 2 % 2 ^ 8) ∧ (t.reg VF).toNat = (s.reg x).toNat / 128 ∧ PcPlus 2 s t ∧
    ChangesOnly [x, VF] [] s t

/-- R162: CXNN writes the draw AND NN, for whatever byte is drawn, and the next draw is another one (log entry 8). -/
def Obligations.RandomIsMaskedByNN : Prop :=
  DecodesAs 0xC000#16 0xF000#16 (fun w => .rnd (fieldX w) (fieldNN w)) ∧
  ∀ (x : Reg) (nn : Byte) (s : State), ∃ t, exec (.rnd x nn) s = .next t ∧
    (∀ b, (t.reg x).getLsbD b = ((Config.randomByte s.draws).getLsbD b && nn.getLsbD b)) ∧ t.draws = s.draws + 1 ∧
    PcPlus 2 s t ∧ ChangesOnly [x] [.draws] s t

/-! Index register and memory. -/

/-- R191: ANNN. -/
def Obligations.LoadIndex : Prop :=
  DecodesAs 0xA000#16 0xF000#16 (fun w => .ldI (fieldNNN w)) ∧
  ∀ (nnn : Addr) (s : State), ∃ t, exec (.ldI nnn) s = .next t ∧ t.I.toNat = nnn.toNat ∧ PcPlus 2 s t ∧
    ChangesOnly [] [.index] s t

/-- R192: FX1E, the flag from the unbounded sum, with the flag last and with the flag first. -/
def Obligations.AddToIndexFlagsPastFFF : Prop :=
  DecodesAs 0xF01E#16 0xF0FF#16 (fun w => .addI (fieldX w)) ∧
  ∀ (x : Reg) (s : State),
    (∃ t, exec (.addI x) s = .next t ∧ t.I.toNat = (s.I.toNat + (s.reg x).toNat) % 2 ^ 16 ∧
      (t.reg VF).toNat = (if s.I.toNat + (s.reg x).toNat > 0xFFF then 1 else 0) ∧ PcPlus 2 s t ∧
      ChangesOnly [VF] [.index] s t) ∧
    ∀ u, u = s.setReg VF (if s.I.toNat + (s.reg x).toNat > 0xFFF then 1#8 else 0#8) →
      (addIndexWith .flagFirst x s).I.toNat = (s.I.toNat + (u.reg x).toNat) % 2 ^ 16 ∧
      (addIndexWith .flagFirst x s).reg VF = u.reg VF ∧
      ChangesOnly [VF] [.index] s (addIndexWith .flagFirst x s)

/-- R194: FX29, unmasked. -/
def Obligations.FontAddressIsFiveTimesTheDigit : Prop :=
  DecodesAs 0xF029#16 0xF0FF#16 (fun w => .ldFont (fieldX w)) ∧
  ∀ (x : Reg) (s : State), ∃ t, exec (.ldFont x) s = .next t ∧ t.I.toNat = 5 * (s.reg x).toNat ∧ PcPlus 2 s t ∧
    ChangesOnly [] [.index] s t

/-- R195: FX33; the addresses stored to are I, I+1, I+2 of the state before. -/
def Obligations.DecimalDigitsAreStored : Prop :=
  DecodesAs 0xF033#16 0xF0FF#16 (fun w => .bcd (fieldX w)) ∧
  ∀ (x : Reg) (s : State),
    (0x1000 ≤ s.indexAddr + 2 → RaisesAt (.bcd x) (.memoryBounds (max s.indexAddr 0x1000)) s) ∧
    (s.indexAddr + 2 < 0x1000 → ∃ t, exec (.bcd x) s = .next t ∧
      (t.byte s.indexAddr).toNat = (s.reg x).toNat / 100 ∧
      (t.byte (s.indexAddr + 1)).toNat = (s.reg x).toNat / 10 % 10 ∧
      (t.byte (s.indexAddr + 2)).toNat = (s.reg x).toNat % 10 ∧
      (∀ a, a < s.indexAddr ∨ s.indexAddr + 3 ≤ a → t.byte a = s.byte a) ∧
      t.lowWrites = s.lowWrites ++ lowWritesOf s.pc s.indexAddr 3 ∧ PcPlus 2 s t ∧
      ChangesOnly [] [.memory, .lowWrites] s t)

/-- R196: FX55; the addresses stored to are I .. I+X of the state before. -/
def Obligations.RegistersAreStoredAndIndexAdvances : Prop :=
  DecodesAs 0xF055#16 0xF0FF#16 (fun w => .store (fieldX w)) ∧
  ∀ (x : Reg) (s : State),
    (0x1000 ≤ s.indexAddr + x.toNat → RaisesAt (.store x) (.memoryBounds (max s.indexAddr 0x1000)) s) ∧
    (s.indexAddr + x.toNat < 0x1000 → ∃ t, exec (.store x) s = .next t ∧
      (∀ r : Reg, r.toNat ≤ x.toNat → t.byte (s.indexAddr + r.toNat) = s.reg r) ∧
      (∀ a, a < s.indexAddr ∨ s.indexAddr + x.toNat < a → t.byte a = s.byte a) ∧
      t.I.toNat = (s.I.toNat + x.toNat + 1) % 2 ^ 16 ∧
      t.lowWrites = s.lowWrites ++ lowWritesOf s.pc s.indexAddr (x.toNat + 1) ∧ PcPlus 2 s t ∧
      ChangesOnly [] [.memory, .index, .lowWrites] s t)

/-- R197: FX65; registers above X are unchanged. -/
def Obligations.RegistersAreLoadedAndIndexAdvances : Prop :=
  DecodesAs 0xF065#16 0xF0FF#16 (fun w => .load (fieldX w)) ∧
  ∀ (x : Reg) (s : State),
    (0x1000 ≤ s.indexAddr + x.toNat → RaisesAt (.load x) (.memoryBounds (max s.indexAddr 0x1000)) s) ∧
    (s.indexAddr + x.toNat < 0x1000 → ∃ t, exec (.load x) s = .next t ∧
      (∀ r : Reg, t.reg r = if r.toNat ≤ x.toNat then s.byte (s.indexAddr + r.toNat) else s.reg r) ∧
      t.I.toNat = (s.I.toNat + x.toNat + 1) % 2 ^ 16 ∧ PcPlus 2 s t ∧ KeepsOthers [.index] s t)

/-! Display. -/

/-- R210: 00E0; VF and every other register are unchanged. -/
def Obligations.ClearClearsEveryCell : Prop :=
  DecodesAs 0x00E0#16 0xFFFF#16 (fun _ => .cls) ∧
  ∀ s : State, ∃ t, exec .cls s = .next t ∧ (∀ p, p < 2048 → t.cell p = false) ∧ PcPlus 2 s t ∧
    ChangesOnly [] [.framebuffer] s t

/-- R212, R213, R214: DXYN. MemoryBounds of the sprite bytes first, then DrawIndex of the first set pixel without a cell;
else exactly the cells of the set pixels are toggled and VF tells whether one of them was set. -/
def Obligations.DrawTogglesTheSpriteAndReportsCollision : Prop :=
  DecodesAs 0xD000#16 0xF000#16 (fun w => .drw (fieldX w) (fieldY w) (fieldN w)) ∧
  ∀ (x y : Reg) (n : Nibble) (s : State),
    (0 < n.toNat → 0x1000 ≤ s.indexAddr + n.toNat - 1 →
      RaisesAt (.drw x y n) (.memoryBounds (max s.indexAddr 0x1000)) s) ∧
    (n.toNat = 0 ∨ s.indexAddr + n.toNat - 1 < 0x1000 →
      (∀ r c, SpritePixel s n r c → 2048 ≤ PixelIndex s x y r c →
        (∀ r' c', SpritePixel s n r' c' → r' < r ∨ (r' = r ∧ c' < c) → PixelIndex s x y r' c' < 2048) →
        RaisesAt (.drw x y n) (.drawIndex (PixelIndex s x y r c)) s) ∧
      ((∀ r c, SpritePixel s n r c → PixelIndex s x y r c < 2048) →
        ∃ t, exec (.drw x y n) s = .next t ∧
          (∀ r c, SpritePixel s n r c → t.cell (PixelIndex s x y r c) = !s.cell (PixelIndex s x y r c)) ∧
          (∀ p, (∀ r c, SpritePixel s n r c → PixelIndex s x y r c ≠ p) → t.cell p = s.cell p) ∧
          ((∃ r c, SpritePixel s n r c ∧ s.cell (PixelIndex s x y r c) = true) → t.reg VF = 1#8) ∧
          ((∀ r c, SpritePixel s n r c → s.cell (PixelIndex s x y r c) = false) → t.reg VF = 0#8) ∧ PcPlus 2 s t ∧
          ChangesOnly [VF] [.framebuffer] s t))

/-! Keys and timers. -/

/-- R230, R231, R232: EX9E and EXA1. -/
def Obligations.KeySkips : Prop :=
  DecodesAs 0xE09E#16 0xF0FF#16 (fun w => .skp (fieldX w)) ∧
  DecodesAs 0xE0A1#16 0xF0FF#16 (fun w => .sknp (fieldX w)) ∧
  ∀ (x : Reg) (s : State),
    (16 ≤ (s.reg x).toNat → RaisesAt (.skp x) (.keyIndex (s.reg x).toNat) s ∧
      RaisesAt (.sknp x) (.keyIndex (s.reg x).toNat) s) ∧
    ((s.reg x).toNat < 16 →
      (∃ t, exec (.skp x) s = .next t ∧ PcPlus (if s.key (s.reg x).toNat = true then 4 else 2) s t ∧
        ChangesOnly [] [] s t) ∧
      ∃ t, exec (.sknp x) s = .next t ∧ PcPlus (if s.key (s.reg x).toNat = false then 4 else 2) s t ∧
        ChangesOnly [] [] s t)

/-- R233, R234: FX0A. With no key pressed the step is a KeyWait without any state change or CycleCompleted; else it stores
one pressed key, whichever is chosen (log entry 7). -/
def Obligations.KeyWaitHoldsUntilAKeyIsPressed : Prop :=
  DecodesAs 0xF00A#16 0xF0FF#16 (fun w => .ldKey (fieldX w)) ∧
  ∀ (x : Reg) (s : State),
    ((∀ k, s.key k = false) → ∃ t, runInstr s (.ldKey x) = .next t ∧ SameCore s t ∧
      t.outcome = some .keyWait ∧ t.outputs = []) ∧
    ((∃ k, s.key k = true) → ∃ t k, exec (.ldKey x) s = .next t ∧ k < 16 ∧ s.key k = true ∧ (t.reg x).toNat = k ∧
      PcPlus 2 s t ∧ ChangesOnly [x] [.draws] s t)

/-- R235: FX07. -/
def Obligations.ReadDelayTimer : Prop :=
  DecodesAs 0xF007#16 0xF0FF#16 (fun w => .ldFromDT (fieldX w)) ∧
  ∀ (x : Reg) (s : State), ∃ t, exec (.ldFromDT x) s = .next t ∧ t.reg x = s.DT ∧ PcPlus 2 s t ∧
    ChangesOnly [x] [] s t

/-- R236: FX15. -/
def Obligations.SetDelayTimer : Prop :=
  DecodesAs 0xF015#16 0xF0FF#16 (fun w => .ldDT (fieldX w)) ∧
  ∀ (x : Reg) (s : State), ∃ t, exec (.ldDT x) s = .next t ∧ t.DT = s.reg x ∧ PcPlus 2 s t ∧
    ChangesOnly [] [.delayTimer] s t

/-- R237, R281: FX18; the tone is active exactly when the value is not 0. -/
def Obligations.SetSoundTimer : Prop :=
  DecodesAs 0xF018#16 0xF0FF#16 (fun w => .ldST (fieldX w)) ∧
  ∀ (x : Reg) (s : State), ∃ t, exec (.ldST x) s = .next t ∧ t.ST = s.reg x ∧
    (t.toneActive = true ↔ (s.reg x).toNat ≠ 0) ∧ PcPlus 2 s t ∧ ChangesOnly [] [.soundTimer] s t
end

