-- ==== Sys2Proof/Laws/Decode.lean ====
section
/-! SUPPORT. The fields of a word that matches a row of the opcode map, and the fields of a packed word. -/

namespace Sys2Proof

/-- The top nibble of a word that matches a row whose mask covers it. -/
theorem fieldT_of_mask {w m v : Word} (h : w &&& m = v) (hm : m.extractLsb' 12 4 = 0xF#4) :
    fieldT w = v.extractLsb' 12 4 := by
  rw [← h, BitVec.extractLsb'_and, hm, show (0xF#4 : Nibble) = BitVec.allOnes 4 from rfl, BitVec.and_allOnes]
  rfl

/-- The bottom nibble of a word that matches a row whose mask covers it. -/
theorem fieldN_of_mask {w m v : Word} (h : w &&& m = v) (hm : m.extractLsb' 0 4 = 0xF#4) :
    fieldN w = v.extractLsb' 0 4 := by
  rw [← h, BitVec.extractLsb'_and, hm, show (0xF#4 : Nibble) = BitVec.allOnes 4 from rfl, BitVec.and_allOnes]
  rfl

/-- The bottom byte of a word that matches a row whose mask covers it. -/
theorem fieldNN_of_mask {w m v : Word} (h : w &&& m = v) (hm : m.extractLsb' 0 8 = 0xFF#8) :
    fieldNN w = v.extractLsb' 0 8 := by
  rw [← h, BitVec.extractLsb'_and, hm, show (0xFF#8 : Byte) = BitVec.allOnes 8 from rfl, BitVec.and_allOnes]
  rfl

/-- The high and low bytes of a word make it up again (R65). -/
theorem wordOfBytes_hi_lo (w : Word) : wordOfBytes (hiByte w) (loByte w) = w := by
  apply BitVec.eq_of_toNat_eq
  have := w.isLt
  simp only [wordOfBytes, hiByte, loByte, BitVec.toNat_ofNat, BitVec.extractLsb'_toNat, Nat.shiftRight_eq_div_pow]
  omega

/-- The decoder on bytes reads exactly the word they make (R82). -/
theorem decode_bytes (hi lo : Byte) (rest : List Byte) :
    decode (hi :: lo :: rest) = (decodeWord (wordOfBytes hi lo)).map fun i => (i, rest) := rfl

/-! The fields of a packed word, and a word packed again from its fields (R81). -/

@[simp] theorem fieldT_packXYN (t : Nibble) (x y : Reg) (n : Nibble) : fieldT (packXYN t x y n) = t := by
  unfold fieldT packXYN
  apply BitVec.eq_of_toNat_eq
  simp only [BitVec.toNat_ofNat, BitVec.extractLsb'_toNat, Nat.shiftRight_eq_div_pow]
  omega

@[simp] theorem fieldX_packXYN (t : Nibble) (x y : Reg) (n : Nibble) : fieldX (packXYN t x y n) = x := by
  unfold fieldX packXYN
  apply BitVec.eq_of_toNat_eq
  simp only [BitVec.toNat_ofNat, BitVec.extractLsb'_toNat, Nat.shiftRight_eq_div_pow]
  omega

@[simp] theorem fieldY_packXYN (t : Nibble) (x y : Reg) (n : Nibble) : fieldY (packXYN t x y n) = y := by
  unfold fieldY packXYN
  apply BitVec.eq_of_toNat_eq
  simp only [BitVec.toNat_ofNat, BitVec.extractLsb'_toNat, Nat.shiftRight_eq_div_pow]
  omega

@[simp] theorem fieldN_packXYN (t : Nibble) (x y : Reg) (n : Nibble) : fieldN (packXYN t x y n) = n := by
  unfold fieldN packXYN
  apply BitVec.eq_of_toNat_eq
  simp only [BitVec.toNat_ofNat, BitVec.extractLsb'_toNat, Nat.shiftRight_eq_div_pow]
  omega

@[simp] theorem fieldT_packXNN (t : Nibble) (x : Reg) (nn : Byte) : fieldT (packXNN t x nn) = t := by
  unfold fieldT packXNN
  apply BitVec.eq_of_toNat_eq
  simp only [BitVec.toNat_ofNat, BitVec.extractLsb'_toNat, Nat.shiftRight_eq_div_pow]
  omega

@[simp] theorem fieldX_packXNN (t : Nibble) (x : Reg) (nn : Byte) : fieldX (packXNN t x nn) = x := by
  unfold fieldX packXNN
  apply BitVec.eq_of_toNat_eq
  simp only [BitVec.toNat_ofNat, BitVec.extractLsb'_toNat, Nat.shiftRight_eq_div_pow]
  omega

@[simp] theorem fieldNN_packXNN (t : Nibble) (x : Reg) (nn : Byte) : fieldNN (packXNN t x nn) = nn := by
  unfold fieldNN packXNN
  apply BitVec.eq_of_toNat_eq
  simp only [BitVec.toNat_ofNat, BitVec.extractLsb'_toNat, Nat.shiftRight_eq_div_pow]
  omega

@[simp] theorem fieldT_packNNN (t : Nibble) (nnn : Addr) : fieldT (packNNN t nnn) = t := by
  unfold fieldT packNNN
  apply BitVec.eq_of_toNat_eq
  simp only [BitVec.toNat_ofNat, BitVec.extractLsb'_toNat, Nat.shiftRight_eq_div_pow]
  omega

@[simp] theorem fieldNNN_packNNN (t : Nibble) (nnn : Addr) : fieldNNN (packNNN t nnn) = nnn := by
  unfold fieldNNN packNNN
  apply BitVec.eq_of_toNat_eq
  simp only [BitVec.toNat_ofNat, BitVec.extractLsb'_toNat, Nat.shiftRight_eq_div_pow]
  omega

theorem packXYN_fields (w : Word) : packXYN (fieldT w) (fieldX w) (fieldY w) (fieldN w) = w := by
  unfold packXYN fieldT fieldX fieldY fieldN
  apply BitVec.eq_of_toNat_eq
  simp only [BitVec.toNat_ofNat, BitVec.extractLsb'_toNat, Nat.shiftRight_eq_div_pow]
  omega

theorem packXNN_fields (w : Word) : packXNN (fieldT w) (fieldX w) (fieldNN w) = w := by
  unfold packXNN fieldT fieldX fieldNN
  apply BitVec.eq_of_toNat_eq
  simp only [BitVec.toNat_ofNat, BitVec.extractLsb'_toNat, Nat.shiftRight_eq_div_pow]
  omega

theorem packNNN_fields (w : Word) : packNNN (fieldT w) (fieldNNN w) = w := by
  unfold packNNN fieldT fieldNNN
  apply BitVec.eq_of_toNat_eq
  simp only [BitVec.toNat_ofNat, BitVec.extractLsb'_toNat, Nat.shiftRight_eq_div_pow]
  omega

/-! A word under the masks of the opcode map R86, from its fields. -/

theorem and_maskT (w : Word) : w &&& 0xF000#16 = BitVec.ofNat 16 ((fieldT w).toNat * 0x1000) := by
  have h : w &&& 0xF000#16 = (w >>> 12) <<< 12 := by
    apply BitVec.eq_of_getLsbD_eq
    intro i hi
    interval_cases i <;> simp
  rw [h]
  apply BitVec.eq_of_toNat_eq
  simp only [fieldT, BitVec.toNat_ofNat, BitVec.extractLsb'_toNat, BitVec.toNat_shiftLeft,
    BitVec.toNat_ushiftRight, Nat.shiftRight_eq_div_pow, Nat.shiftLeft_eq]
  omega

theorem and_maskN (w : Word) : w &&& 0x000F#16 = BitVec.ofNat 16 (fieldN w).toNat := by
  have h : w &&& 0x000F#16 = (w <<< 12) >>> 12 := by
    apply BitVec.eq_of_getLsbD_eq
    intro i hi
    interval_cases i <;> simp
  rw [h]
  apply BitVec.eq_of_toNat_eq
  simp only [fieldN, BitVec.toNat_ofNat, BitVec.extractLsb'_toNat, BitVec.toNat_shiftLeft,
    BitVec.toNat_ushiftRight, Nat.shiftRight_eq_div_pow, Nat.shiftLeft_eq]
  omega

theorem and_maskNN (w : Word) : w &&& 0x00FF#16 = BitVec.ofNat 16 (fieldNN w).toNat := by
  have h : w &&& 0x00FF#16 = (w <<< 8) >>> 8 := by
    apply BitVec.eq_of_getLsbD_eq
    intro i hi
    interval_cases i <;> simp
  rw [h]
  apply BitVec.eq_of_toNat_eq
  simp only [fieldNN, BitVec.toNat_ofNat, BitVec.extractLsb'_toNat, BitVec.toNat_shiftLeft,
    BitVec.toNat_ushiftRight, Nat.shiftRight_eq_div_pow, Nat.shiftLeft_eq]
  omega

theorem and_maskTN (w : Word) : w &&& 0xF00F#16 =
    BitVec.ofNat 16 ((fieldT w).toNat * 0x1000) ||| BitVec.ofNat 16 (fieldN w).toNat := by
  rw [← and_maskT, ← and_maskN, ← BitVec.and_or_distrib_left]
  rfl

theorem and_maskTNN (w : Word) : w &&& 0xF0FF#16 =
    BitVec.ofNat 16 ((fieldT w).toNat * 0x1000) ||| BitVec.ofNat 16 (fieldNN w).toNat := by
  rw [← and_maskT, ← and_maskNN, ← BitVec.and_or_distrib_left]
  rfl

end Sys2Proof
end

