-- ==== Sys2Proof/Laws/Memory.lean ====
section
/-! SUPPORT. The laws of memory: read after write, and every operation keeps the canonical form. -/

namespace Sys2Proof.Machine

@[simp] theorem Memory.read_nil (a : Nat) : Memory.read [] a = Config.resetByte a := rfl

theorem Memory.read_cons (c : Host.Cell) (m : Memory) (a : Nat) :
    Memory.read (c :: m) a = if c.1 = a then c.2 else Memory.read m a := rfl

theorem Memory.read_eraseAt_same (m : Memory) (a : Nat) : (m.eraseAt a).read a = Config.resetByte a := by
  induction m with
  | nil => rfl
  | cons c m ih =>
    by_cases h : c.1 = a
    · simpa [Memory.eraseAt, h] using ih
    · simpa [Memory.eraseAt, h, Memory.read_cons] using ih

theorem Memory.read_eraseAt_other (m : Memory) {a b : Nat} (h : b ≠ a) : (m.eraseAt a).read b = m.read b := by
  induction m with
  | nil => rfl
  | cons c m ih =>
    by_cases hc : c.1 = a
    · have : c.1 ≠ b := fun e => h (e.symm.trans hc)
      simpa [Memory.eraseAt, hc, Memory.read_cons, this, Ne.symm h] using ih
    · have ih' : Memory.read (List.filter (fun c => c.1 != a) m) b = Memory.read m b := ih
      simp [Memory.eraseAt, hc, Memory.read_cons, ih']

theorem Memory.read_insertCell_same (m : Memory) (a : Nat) (v : Byte) (h : ∀ c ∈ m, c.1 ≠ a) :
    (Memory.insertCell (a, v) m).read a = v := by
  induction m with
  | nil => simp [Memory.insertCell, Memory.read_cons]
  | cons d m ih =>
    have hd : d.1 ≠ a := h d (by simp)
    have ih := ih fun c hc => h c (by simp [hc])
    by_cases hlt : a < d.1 <;> simp [Memory.insertCell, hlt, Memory.read_cons, hd, ih]

theorem Memory.read_insertCell_other (m : Memory) {a b : Nat} (v : Byte) (h : b ≠ a) :
    (Memory.insertCell (a, v) m).read b = m.read b := by
  induction m with
  | nil => simp [Memory.insertCell, Memory.read_cons, Ne.symm h]
  | cons d m ih =>
    by_cases hlt : a < d.1 <;> simp [Memory.insertCell, hlt, Memory.read_cons, Ne.symm h, ih]

theorem Memory.mem_eraseAt {m : Memory} {a : Nat} {c : Host.Cell} : c ∈ m.eraseAt a ↔ c ∈ m ∧ c.1 ≠ a := by
  simp [Memory.eraseAt]

/-- A read of the address just written gives the byte written (R72). -/
@[simp] theorem Memory.read_write_same (m : Memory) (a : Nat) (v : Byte) : (m.write a v).read a = v := by
  unfold Memory.write
  split
  · next h => rw [Memory.read_eraseAt_same, h]
  · exact Memory.read_insertCell_same _ _ _ fun c hc => (Memory.mem_eraseAt.mp hc).2

/-- A write leaves every other address alone (R72). -/
theorem Memory.read_write_other (m : Memory) {a b : Nat} (v : Byte) (h : b ≠ a) :
    (m.write a v).read b = m.read b := by
  unfold Memory.write
  split
  · exact Memory.read_eraseAt_other m h
  · rw [Memory.read_insertCell_other _ _ h, Memory.read_eraseAt_other m h]

/-- What a write of consecutive bytes leaves at every address. -/
theorem Memory.read_writeList (m : Memory) (a : Nat) (l : List Byte) (b : Nat) :
    (m.writeList a l).read b = if a ≤ b ∧ b < a + l.length then l.getD (b - a) 0#8 else m.read b := by
  induction l generalizing m a with
  | nil => simp [Memory.writeList]
  | cons v l ih =>
    rw [Memory.writeList, ih]
    by_cases h : b = a
    · subst h
      simp
    · have hread : (m.write a v).read b = m.read b := Memory.read_write_other m v h
      by_cases hin : a + 1 ≤ b ∧ b < a + 1 + l.length
      · have h1 : a ≤ b ∧ b < a + (v :: l).length := by simp only [List.length_cons]; omega
        have h2 : b - a = (b - (a + 1)) + 1 := by omega
        rw [if_pos hin, if_pos h1, h2, List.getD_cons_succ]
      · have h1 : ¬(a ≤ b ∧ b < a + (v :: l).length) := by simp only [List.length_cons]; omega
        simp only [hin, h1, if_false, hread]

@[simp] theorem Memory.length_readList (m : Memory) (a n : Nat) : (m.readList a n).length = n := by
  induction n generalizing a with
  | zero => rfl
  | succ n ih => simp [Memory.readList, ih]

/-- The k-th of n bytes read from an address up. -/
theorem Memory.getD_readList (m : Memory) (a n k : Nat) (h : k < n) :
    (m.readList a n).getD k 0#8 = m.read (a + k) := by
  induction n generalizing a k with
  | zero => omega
  | succ n ih =>
    cases k with
    | zero => rfl
    | succ k =>
      have := ih (a + 1) k (by omega)
      rw [Memory.readList, List.getD_cons_succ, this]
      congr 1
      omega

theorem Memory.wf_cons {c : Host.Cell} {m : Memory} :
    Memory.wf (c :: m) = true ↔
      c.1 < Config.memSize ∧ c.2 ≠ Config.resetByte c.1 ∧ (∀ d ∈ m, c.1 < d.1) ∧ Memory.wf m = true := by
  simp [Memory.wf, and_assoc]

theorem Memory.wf_eraseAt {m : Memory} (a : Nat) (h : m.wf = true) : (m.eraseAt a).wf = true := by
  induction m with
  | nil => rfl
  | cons c m ih =>
    obtain ⟨h1, h2, h3, h4⟩ := Memory.wf_cons.mp h
    by_cases hc : c.1 = a
    · simpa [Memory.eraseAt, hc] using ih h4
    · have : Memory.eraseAt (c :: m) a = c :: Memory.eraseAt m a := by simp [Memory.eraseAt, hc]
      rw [this]
      exact Memory.wf_cons.mpr ⟨h1, h2, fun d hd => h3 d (Memory.mem_eraseAt.mp hd).1, ih h4⟩

theorem Memory.mem_insertCell {c d : Host.Cell} {m : Memory} :
    d ∈ Memory.insertCell c m ↔ d = c ∨ d ∈ m := by
  induction m with
  | nil => simp [Memory.insertCell]
  | cons e m ih =>
    by_cases h : c.1 < e.1
    · simp [Memory.insertCell, h]
    · simp [Memory.insertCell, h, ih]
      tauto

theorem Memory.wf_insertCell {m : Memory} {a : Nat} {v : Byte} (ha : a < Config.memSize)
    (hv : v ≠ Config.resetByte a) (hm : m.wf = true) (hne : ∀ c ∈ m, c.1 ≠ a) :
    (Memory.insertCell (a, v) m).wf = true := by
  induction m with
  | nil => exact Memory.wf_cons.mpr ⟨ha, hv, by simp, rfl⟩
  | cons d m ih =>
    obtain ⟨h1, h2, h3, h4⟩ := Memory.wf_cons.mp hm
    by_cases hlt : a < d.1
    · have heq : Memory.insertCell (a, v) (d :: m) = (a, v) :: d :: m := by simp [Memory.insertCell, hlt]
      rw [heq]
      refine Memory.wf_cons.mpr ⟨ha, hv, fun e he => ?_, hm⟩
      rcases List.mem_cons.mp he with rfl | he
      · exact hlt
      · exact lt_trans hlt (h3 e he)
    · have heq : Memory.insertCell (a, v) (d :: m) = d :: Memory.insertCell (a, v) m := by
        simp [Memory.insertCell, hlt]
      rw [heq]
      have hda : d.1 ≠ a := hne d (by simp)
      refine Memory.wf_cons.mpr ⟨h1, h2, fun e he => ?_, ih h4 fun c hc => hne c (by simp [hc])⟩
      rcases Memory.mem_insertCell.mp he with rfl | he
      · exact lt_of_le_of_ne (not_lt.mp hlt) hda
      · exact h3 e he

/-- A write to an address of memory keeps the canonical form. -/
theorem Memory.wf_write {m : Memory} {a : Nat} (v : Byte) (ha : a < Config.memSize) (h : m.wf = true) :
    (m.write a v).wf = true := by
  unfold Memory.write
  split
  · exact Memory.wf_eraseAt a h
  · next hv => exact Memory.wf_insertCell ha hv (Memory.wf_eraseAt a h) fun c hc => (Memory.mem_eraseAt.mp hc).2

/-- A write of consecutive bytes that all lie in memory keeps the canonical form. -/
theorem Memory.wf_writeList {m : Memory} {a : Nat} (l : List Byte) (ha : a + l.length ≤ Config.memSize)
    (h : m.wf = true) : (m.writeList a l).wf = true := by
  induction l generalizing m a with
  | nil => exact h
  | cons v l ih =>
    simp only [List.length_cons] at ha
    exact ih (by omega) (Memory.wf_write v (by omega) h)

end Sys2Proof.Machine
end

