-- ==== Sys2Proof/Laws/State.lean ====
section
/-! SUPPORT. One lemma per field and per accessor for each update of State, true by rfl. -/

namespace Sys2Proof.Machine

section
variable (s : State)

@[simp] theorem State.setReg_V (r : Reg) (v : Byte) : (s.setReg r v).V = s.V.set r.toNat v r.isLt := rfl
@[simp] theorem State.setReg_I (r : Reg) (v : Byte) : (s.setReg r v).I = s.I := rfl
@[simp] theorem State.setReg_pc (r : Reg) (v : Byte) : (s.setReg r v).pc = s.pc := rfl
@[simp] theorem State.setReg_STACK (r : Reg) (v : Byte) : (s.setReg r v).STACK = s.STACK := rfl
@[simp] theorem State.setReg_SP (r : Reg) (v : Byte) : (s.setReg r v).SP = s.SP := rfl
@[simp] theorem State.setReg_DT (r : Reg) (v : Byte) : (s.setReg r v).DT = s.DT := rfl
@[simp] theorem State.setReg_ST (r : Reg) (v : Byte) : (s.setReg r v).ST = s.ST := rfl
@[simp] theorem State.setReg_MEM (r : Reg) (v : Byte) : (s.setReg r v).MEM = s.MEM := rfl
@[simp] theorem State.setReg_FB (r : Reg) (v : Byte) : (s.setReg r v).FB = s.FB := rfl
@[simp] theorem State.setReg_KEY (r : Reg) (v : Byte) : (s.setReg r v).KEY = s.KEY := rfl
@[simp] theorem State.setReg_paused (r : Reg) (v : Byte) : (s.setReg r v).paused = s.paused := rfl
@[simp] theorem State.setReg_running (r : Reg) (v : Byte) : (s.setReg r v).running = s.running := rfl
@[simp] theorem State.setReg_agenda (r : Reg) (v : Byte) : (s.setReg r v).agenda = s.agenda := rfl
@[simp] theorem State.setReg_draws (r : Reg) (v : Byte) : (s.setReg r v).draws = s.draws := rfl
@[simp] theorem State.setReg_outcome (r : Reg) (v : Byte) : (s.setReg r v).outcome = s.outcome := rfl
@[simp] theorem State.setReg_outputs (r : Reg) (v : Byte) : (s.setReg r v).outputs = s.outputs := rfl
@[simp] theorem State.setReg_faultSet (r : Reg) (v : Byte) : (s.setReg r v).faultSet = s.faultSet := rfl
@[simp] theorem State.setReg_lowWrites (r : Reg) (v : Byte) : (s.setReg r v).lowWrites = s.lowWrites := rfl
@[simp] theorem State.setReg_byte (r : Reg) (v : Byte) (n : Nat) : (s.setReg r v).byte n = s.byte n := rfl
@[simp] theorem State.setReg_stackEntry (r : Reg) (v : Byte) (n : Nat) : (s.setReg r v).stackEntry n = s.stackEntry n := rfl
@[simp] theorem State.setReg_cell (r : Reg) (v : Byte) (n : Nat) : (s.setReg r v).cell n = s.cell n := rfl
@[simp] theorem State.setReg_key (r : Reg) (v : Byte) (n : Nat) : (s.setReg r v).key n = s.key n := rfl
@[simp] theorem State.setReg_pressedKeys (r : Reg) (v : Byte) : (s.setReg r v).pressedKeys = s.pressedKeys := rfl
@[simp] theorem State.setReg_indexAddr (r : Reg) (v : Byte) : (s.setReg r v).indexAddr = s.indexAddr := rfl

@[simp] theorem State.setPc_V (v : Word) : (s.setPc v).V = s.V := rfl
@[simp] theorem State.setPc_I (v : Word) : (s.setPc v).I = s.I := rfl
@[simp] theorem State.setPc_pc (v : Word) : (s.setPc v).pc = v := rfl
@[simp] theorem State.setPc_STACK (v : Word) : (s.setPc v).STACK = s.STACK := rfl
@[simp] theorem State.setPc_SP (v : Word) : (s.setPc v).SP = s.SP := rfl
@[simp] theorem State.setPc_DT (v : Word) : (s.setPc v).DT = s.DT := rfl
@[simp] theorem State.setPc_ST (v : Word) : (s.setPc v).ST = s.ST := rfl
@[simp] theorem State.setPc_MEM (v : Word) : (s.setPc v).MEM = s.MEM := rfl
@[simp] theorem State.setPc_FB (v : Word) : (s.setPc v).FB = s.FB := rfl
@[simp] theorem State.setPc_KEY (v : Word) : (s.setPc v).KEY = s.KEY := rfl
@[simp] theorem State.setPc_paused (v : Word) : (s.setPc v).paused = s.paused := rfl
@[simp] theorem State.setPc_running (v : Word) : (s.setPc v).running = s.running := rfl
@[simp] theorem State.setPc_agenda (v : Word) : (s.setPc v).agenda = s.agenda := rfl
@[simp] theorem State.setPc_draws (v : Word) : (s.setPc v).draws = s.draws := rfl
@[simp] theorem State.setPc_outcome (v : Word) : (s.setPc v).outcome = s.outcome := rfl
@[simp] theorem State.setPc_outputs (v : Word) : (s.setPc v).outputs = s.outputs := rfl
@[simp] theorem State.setPc_faultSet (v : Word) : (s.setPc v).faultSet = s.faultSet := rfl
@[simp] theorem State.setPc_lowWrites (v : Word) : (s.setPc v).lowWrites = s.lowWrites := rfl
@[simp] theorem State.setPc_reg (v : Word) (q : Reg) : (s.setPc v).reg q = s.reg q := rfl
@[simp] theorem State.setPc_byte (v : Word) (n : Nat) : (s.setPc v).byte n = s.byte n := rfl
@[simp] theorem State.setPc_stackEntry (v : Word) (n : Nat) : (s.setPc v).stackEntry n = s.stackEntry n := rfl
@[simp] theorem State.setPc_cell (v : Word) (n : Nat) : (s.setPc v).cell n = s.cell n := rfl
@[simp] theorem State.setPc_key (v : Word) (n : Nat) : (s.setPc v).key n = s.key n := rfl
@[simp] theorem State.setPc_pressedKeys (v : Word) : (s.setPc v).pressedKeys = s.pressedKeys := rfl
@[simp] theorem State.setPc_indexAddr (v : Word) : (s.setPc v).indexAddr = s.indexAddr := rfl

@[simp] theorem State.setI_V (v : Word) : (s.setI v).V = s.V := rfl
@[simp] theorem State.setI_I (v : Word) : (s.setI v).I = v := rfl
@[simp] theorem State.setI_pc (v : Word) : (s.setI v).pc = s.pc := rfl
@[simp] theorem State.setI_STACK (v : Word) : (s.setI v).STACK = s.STACK := rfl
@[simp] theorem State.setI_SP (v : Word) : (s.setI v).SP = s.SP := rfl
@[simp] theorem State.setI_DT (v : Word) : (s.setI v).DT = s.DT := rfl
@[simp] theorem State.setI_ST (v : Word) : (s.setI v).ST = s.ST := rfl
@[simp] theorem State.setI_MEM (v : Word) : (s.setI v).MEM = s.MEM := rfl
@[simp] theorem State.setI_FB (v : Word) : (s.setI v).FB = s.FB := rfl
@[simp] theorem State.setI_KEY (v : Word) : (s.setI v).KEY = s.KEY := rfl
@[simp] theorem State.setI_paused (v : Word) : (s.setI v).paused = s.paused := rfl
@[simp] theorem State.setI_running (v : Word) : (s.setI v).running = s.running := rfl
@[simp] theorem State.setI_agenda (v : Word) : (s.setI v).agenda = s.agenda := rfl
@[simp] theorem State.setI_draws (v : Word) : (s.setI v).draws = s.draws := rfl
@[simp] theorem State.setI_outcome (v : Word) : (s.setI v).outcome = s.outcome := rfl
@[simp] theorem State.setI_outputs (v : Word) : (s.setI v).outputs = s.outputs := rfl
@[simp] theorem State.setI_faultSet (v : Word) : (s.setI v).faultSet = s.faultSet := rfl
@[simp] theorem State.setI_lowWrites (v : Word) : (s.setI v).lowWrites = s.lowWrites := rfl
@[simp] theorem State.setI_reg (v : Word) (q : Reg) : (s.setI v).reg q = s.reg q := rfl
@[simp] theorem State.setI_byte (v : Word) (n : Nat) : (s.setI v).byte n = s.byte n := rfl
@[simp] theorem State.setI_stackEntry (v : Word) (n : Nat) : (s.setI v).stackEntry n = s.stackEntry n := rfl
@[simp] theorem State.setI_cell (v : Word) (n : Nat) : (s.setI v).cell n = s.cell n := rfl
@[simp] theorem State.setI_key (v : Word) (n : Nat) : (s.setI v).key n = s.key n := rfl
@[simp] theorem State.setI_pressedKeys (v : Word) : (s.setI v).pressedKeys = s.pressedKeys := rfl

@[simp] theorem State.setDT_V (v : Byte) : (s.setDT v).V = s.V := rfl
@[simp] theorem State.setDT_I (v : Byte) : (s.setDT v).I = s.I := rfl
@[simp] theorem State.setDT_pc (v : Byte) : (s.setDT v).pc = s.pc := rfl
@[simp] theorem State.setDT_STACK (v : Byte) : (s.setDT v).STACK = s.STACK := rfl
@[simp] theorem State.setDT_SP (v : Byte) : (s.setDT v).SP = s.SP := rfl
@[simp] theorem State.setDT_DT (v : Byte) : (s.setDT v).DT = v := rfl
@[simp] theorem State.setDT_ST (v : Byte) : (s.setDT v).ST = s.ST := rfl
@[simp] theorem State.setDT_MEM (v : Byte) : (s.setDT v).MEM = s.MEM := rfl
@[simp] theorem State.setDT_FB (v : Byte) : (s.setDT v).FB = s.FB := rfl
@[simp] theorem State.setDT_KEY (v : Byte) : (s.setDT v).KEY = s.KEY := rfl
@[simp] theorem State.setDT_paused (v : Byte) : (s.setDT v).paused = s.paused := rfl
@[simp] theorem State.setDT_running (v : Byte) : (s.setDT v).running = s.running := rfl
@[simp] theorem State.setDT_agenda (v : Byte) : (s.setDT v).agenda = s.agenda := rfl
@[simp] theorem State.setDT_draws (v : Byte) : (s.setDT v).draws = s.draws := rfl
@[simp] theorem State.setDT_outcome (v : Byte) : (s.setDT v).outcome = s.outcome := rfl
@[simp] theorem State.setDT_outputs (v : Byte) : (s.setDT v).outputs = s.outputs := rfl
@[simp] theorem State.setDT_faultSet (v : Byte) : (s.setDT v).faultSet = s.faultSet := rfl
@[simp] theorem State.setDT_lowWrites (v : Byte) : (s.setDT v).lowWrites = s.lowWrites := rfl
@[simp] theorem State.setDT_reg (v : Byte) (q : Reg) : (s.setDT v).reg q = s.reg q := rfl
@[simp] theorem State.setDT_byte (v : Byte) (n : Nat) : (s.setDT v).byte n = s.byte n := rfl
@[simp] theorem State.setDT_stackEntry (v : Byte) (n : Nat) : (s.setDT v).stackEntry n = s.stackEntry n := rfl
@[simp] theorem State.setDT_cell (v : Byte) (n : Nat) : (s.setDT v).cell n = s.cell n := rfl
@[simp] theorem State.setDT_key (v : Byte) (n : Nat) : (s.setDT v).key n = s.key n := rfl
@[simp] theorem State.setDT_pressedKeys (v : Byte) : (s.setDT v).pressedKeys = s.pressedKeys := rfl
@[simp] theorem State.setDT_indexAddr (v : Byte) : (s.setDT v).indexAddr = s.indexAddr := rfl

@[simp] theorem State.setST_V (v : Byte) : (s.setST v).V = s.V := rfl
@[simp] theorem State.setST_I (v : Byte) : (s.setST v).I = s.I := rfl
@[simp] theorem State.setST_pc (v : Byte) : (s.setST v).pc = s.pc := rfl
@[simp] theorem State.setST_STACK (v : Byte) : (s.setST v).STACK = s.STACK := rfl
@[simp] theorem State.setST_SP (v : Byte) : (s.setST v).SP = s.SP := rfl
@[simp] theorem State.setST_DT (v : Byte) : (s.setST v).DT = s.DT := rfl
@[simp] theorem State.setST_ST (v : Byte) : (s.setST v).ST = v := rfl
@[simp] theorem State.setST_MEM (v : Byte) : (s.setST v).MEM = s.MEM := rfl
@[simp] theorem State.setST_FB (v : Byte) : (s.setST v).FB = s.FB := rfl
@[simp] theorem State.setST_KEY (v : Byte) : (s.setST v).KEY = s.KEY := rfl
@[simp] theorem State.setST_paused (v : Byte) : (s.setST v).paused = s.paused := rfl
@[simp] theorem State.setST_running (v : Byte) : (s.setST v).running = s.running := rfl
@[simp] theorem State.setST_agenda (v : Byte) : (s.setST v).agenda = s.agenda := rfl
@[simp] theorem State.setST_draws (v : Byte) : (s.setST v).draws = s.draws := rfl
@[simp] theorem State.setST_outcome (v : Byte) : (s.setST v).outcome = s.outcome := rfl
@[simp] theorem State.setST_outputs (v : Byte) : (s.setST v).outputs = s.outputs := rfl
@[simp] theorem State.setST_faultSet (v : Byte) : (s.setST v).faultSet = s.faultSet := rfl
@[simp] theorem State.setST_lowWrites (v : Byte) : (s.setST v).lowWrites = s.lowWrites := rfl
@[simp] theorem State.setST_reg (v : Byte) (q : Reg) : (s.setST v).reg q = s.reg q := rfl
@[simp] theorem State.setST_byte (v : Byte) (n : Nat) : (s.setST v).byte n = s.byte n := rfl
@[simp] theorem State.setST_stackEntry (v : Byte) (n : Nat) : (s.setST v).stackEntry n = s.stackEntry n := rfl
@[simp] theorem State.setST_cell (v : Byte) (n : Nat) : (s.setST v).cell n = s.cell n := rfl
@[simp] theorem State.setST_key (v : Byte) (n : Nat) : (s.setST v).key n = s.key n := rfl
@[simp] theorem State.setST_pressedKeys (v : Byte) : (s.setST v).pressedKeys = s.pressedKeys := rfl
@[simp] theorem State.setST_indexAddr (v : Byte) : (s.setST v).indexAddr = s.indexAddr := rfl

@[simp] theorem State.setPaused_V (b : Bool) : (s.setPaused b).V = s.V := rfl
@[simp] theorem State.setPaused_I (b : Bool) : (s.setPaused b).I = s.I := rfl
@[simp] theorem State.setPaused_pc (b : Bool) : (s.setPaused b).pc = s.pc := rfl
@[simp] theorem State.setPaused_STACK (b : Bool) : (s.setPaused b).STACK = s.STACK := rfl
@[simp] theorem State.setPaused_SP (b : Bool) : (s.setPaused b).SP = s.SP := rfl
@[simp] theorem State.setPaused_DT (b : Bool) : (s.setPaused b).DT = s.DT := rfl
@[simp] theorem State.setPaused_ST (b : Bool) : (s.setPaused b).ST = s.ST := rfl
@[simp] theorem State.setPaused_MEM (b : Bool) : (s.setPaused b).MEM = s.MEM := rfl
@[simp] theorem State.setPaused_FB (b : Bool) : (s.setPaused b).FB = s.FB := rfl
@[simp] theorem State.setPaused_KEY (b : Bool) : (s.setPaused b).KEY = s.KEY := rfl
@[simp] theorem State.setPaused_paused (b : Bool) : (s.setPaused b).paused = b := rfl
@[simp] theorem State.setPaused_running (b : Bool) : (s.setPaused b).running = s.running := rfl
@[simp] theorem State.setPaused_agenda (b : Bool) : (s.setPaused b).agenda = s.agenda := rfl
@[simp] theorem State.setPaused_draws (b : Bool) : (s.setPaused b).draws = s.draws := rfl
@[simp] theorem State.setPaused_outcome (b : Bool) : (s.setPaused b).outcome = s.outcome := rfl
@[simp] theorem State.setPaused_outputs (b : Bool) : (s.setPaused b).outputs = s.outputs := rfl
@[simp] theorem State.setPaused_faultSet (b : Bool) : (s.setPaused b).faultSet = s.faultSet := rfl
@[simp] theorem State.setPaused_lowWrites (b : Bool) : (s.setPaused b).lowWrites = s.lowWrites := rfl
@[simp] theorem State.setPaused_reg (b : Bool) (q : Reg) : (s.setPaused b).reg q = s.reg q := rfl
@[simp] theorem State.setPaused_byte (b : Bool) (n : Nat) : (s.setPaused b).byte n = s.byte n := rfl
@[simp] theorem State.setPaused_stackEntry (b : Bool) (n : Nat) : (s.setPaused b).stackEntry n = s.stackEntry n := rfl
@[simp] theorem State.setPaused_cell (b : Bool) (n : Nat) : (s.setPaused b).cell n = s.cell n := rfl
@[simp] theorem State.setPaused_key (b : Bool) (n : Nat) : (s.setPaused b).key n = s.key n := rfl
@[simp] theorem State.setPaused_pressedKeys (b : Bool) : (s.setPaused b).pressedKeys = s.pressedKeys := rfl
@[simp] theorem State.setPaused_indexAddr (b : Bool) : (s.setPaused b).indexAddr = s.indexAddr := rfl

@[simp] theorem State.setRunning_V (b : Bool) : (s.setRunning b).V = s.V := rfl
@[simp] theorem State.setRunning_I (b : Bool) : (s.setRunning b).I = s.I := rfl
@[simp] theorem State.setRunning_pc (b : Bool) : (s.setRunning b).pc = s.pc := rfl
@[simp] theorem State.setRunning_STACK (b : Bool) : (s.setRunning b).STACK = s.STACK := rfl
@[simp] theorem State.setRunning_SP (b : Bool) : (s.setRunning b).SP = s.SP := rfl
@[simp] theorem State.setRunning_DT (b : Bool) : (s.setRunning b).DT = s.DT := rfl
@[simp] theorem State.setRunning_ST (b : Bool) : (s.setRunning b).ST = s.ST := rfl
@[simp] theorem State.setRunning_MEM (b : Bool) : (s.setRunning b).MEM = s.MEM := rfl
@[simp] theorem State.setRunning_FB (b : Bool) : (s.setRunning b).FB = s.FB := rfl
@[simp] theorem State.setRunning_KEY (b : Bool) : (s.setRunning b).KEY = s.KEY := rfl
@[simp] theorem State.setRunning_paused (b : Bool) : (s.setRunning b).paused = s.paused := rfl
@[simp] theorem State.setRunning_running (b : Bool) : (s.setRunning b).running = b := rfl
@[simp] theorem State.setRunning_agenda (b : Bool) : (s.setRunning b).agenda = s.agenda := rfl
@[simp] theorem State.setRunning_draws (b : Bool) : (s.setRunning b).draws = s.draws := rfl
@[simp] theorem State.setRunning_outcome (b : Bool) : (s.setRunning b).outcome = s.outcome := rfl
@[simp] theorem State.setRunning_outputs (b : Bool) : (s.setRunning b).outputs = s.outputs := rfl
@[simp] theorem State.setRunning_faultSet (b : Bool) : (s.setRunning b).faultSet = s.faultSet := rfl
@[simp] theorem State.setRunning_lowWrites (b : Bool) : (s.setRunning b).lowWrites = s.lowWrites := rfl
@[simp] theorem State.setRunning_reg (b : Bool) (q : Reg) : (s.setRunning b).reg q = s.reg q := rfl
@[simp] theorem State.setRunning_byte (b : Bool) (n : Nat) : (s.setRunning b).byte n = s.byte n := rfl
@[simp] theorem State.setRunning_stackEntry (b : Bool) (n : Nat) : (s.setRunning b).stackEntry n = s.stackEntry n := rfl
@[simp] theorem State.setRunning_cell (b : Bool) (n : Nat) : (s.setRunning b).cell n = s.cell n := rfl
@[simp] theorem State.setRunning_key (b : Bool) (n : Nat) : (s.setRunning b).key n = s.key n := rfl
@[simp] theorem State.setRunning_pressedKeys (b : Bool) : (s.setRunning b).pressedKeys = s.pressedKeys := rfl
@[simp] theorem State.setRunning_indexAddr (b : Bool) : (s.setRunning b).indexAddr = s.indexAddr := rfl

@[simp] theorem State.advance_V (k : Nat) : (s.advance k).V = s.V := rfl
@[simp] theorem State.advance_I (k : Nat) : (s.advance k).I = s.I := rfl
@[simp] theorem State.advance_pc (k : Nat) : (s.advance k).pc = s.pc + BitVec.ofNat 16 k := rfl
@[simp] theorem State.advance_STACK (k : Nat) : (s.advance k).STACK = s.STACK := rfl
@[simp] theorem State.advance_SP (k : Nat) : (s.advance k).SP = s.SP := rfl
@[simp] theorem State.advance_DT (k : Nat) : (s.advance k).DT = s.DT := rfl
@[simp] theorem State.advance_ST (k : Nat) : (s.advance k).ST = s.ST := rfl
@[simp] theorem State.advance_MEM (k : Nat) : (s.advance k).MEM = s.MEM := rfl
@[simp] theorem State.advance_FB (k : Nat) : (s.advance k).FB = s.FB := rfl
@[simp] theorem State.advance_KEY (k : Nat) : (s.advance k).KEY = s.KEY := rfl
@[simp] theorem State.advance_paused (k : Nat) : (s.advance k).paused = s.paused := rfl
@[simp] theorem State.advance_running (k : Nat) : (s.advance k).running = s.running := rfl
@[simp] theorem State.advance_agenda (k : Nat) : (s.advance k).agenda = s.agenda := rfl
@[simp] theorem State.advance_draws (k : Nat) : (s.advance k).draws = s.draws := rfl
@[simp] theorem State.advance_outcome (k : Nat) : (s.advance k).outcome = s.outcome := rfl
@[simp] theorem State.advance_outputs (k : Nat) : (s.advance k).outputs = s.outputs := rfl
@[simp] theorem State.advance_faultSet (k : Nat) : (s.advance k).faultSet = s.faultSet := rfl
@[simp] theorem State.advance_lowWrites (k : Nat) : (s.advance k).lowWrites = s.lowWrites := rfl
@[simp] theorem State.advance_reg (k : Nat) (q : Reg) : (s.advance k).reg q = s.reg q := rfl
@[simp] theorem State.advance_byte (k : Nat) (n : Nat) : (s.advance k).byte n = s.byte n := rfl
@[simp] theorem State.advance_stackEntry (k : Nat) (n : Nat) : (s.advance k).stackEntry n = s.stackEntry n := rfl
@[simp] theorem State.advance_cell (k : Nat) (n : Nat) : (s.advance k).cell n = s.cell n := rfl
@[simp] theorem State.advance_key (k : Nat) (n : Nat) : (s.advance k).key n = s.key n := rfl
@[simp] theorem State.advance_pressedKeys (k : Nat) : (s.advance k).pressedKeys = s.pressedKeys := rfl
@[simp] theorem State.advance_indexAddr (k : Nat) : (s.advance k).indexAddr = s.indexAddr := rfl

@[simp] theorem State.skipIf_V (c : Bool) : (s.skipIf c).V = s.V := rfl
@[simp] theorem State.skipIf_I (c : Bool) : (s.skipIf c).I = s.I := rfl
@[simp] theorem State.skipIf_pc (c : Bool) : (s.skipIf c).pc = s.pc + BitVec.ofNat 16 (if c then 4 else 2) := rfl
@[simp] theorem State.skipIf_STACK (c : Bool) : (s.skipIf c).STACK = s.STACK := rfl
@[simp] theorem State.skipIf_SP (c : Bool) : (s.skipIf c).SP = s.SP := rfl
@[simp] theorem State.skipIf_DT (c : Bool) : (s.skipIf c).DT = s.DT := rfl
@[simp] theorem State.skipIf_ST (c : Bool) : (s.skipIf c).ST = s.ST := rfl
@[simp] theorem State.skipIf_MEM (c : Bool) : (s.skipIf c).MEM = s.MEM := rfl
@[simp] theorem State.skipIf_FB (c : Bool) : (s.skipIf c).FB = s.FB := rfl
@[simp] theorem State.skipIf_KEY (c : Bool) : (s.skipIf c).KEY = s.KEY := rfl
@[simp] theorem State.skipIf_paused (c : Bool) : (s.skipIf c).paused = s.paused := rfl
@[simp] theorem State.skipIf_running (c : Bool) : (s.skipIf c).running = s.running := rfl
@[simp] theorem State.skipIf_agenda (c : Bool) : (s.skipIf c).agenda = s.agenda := rfl
@[simp] theorem State.skipIf_draws (c : Bool) : (s.skipIf c).draws = s.draws := rfl
@[simp] theorem State.skipIf_outcome (c : Bool) : (s.skipIf c).outcome = s.outcome := rfl
@[simp] theorem State.skipIf_outputs (c : Bool) : (s.skipIf c).outputs = s.outputs := rfl
@[simp] theorem State.skipIf_faultSet (c : Bool) : (s.skipIf c).faultSet = s.faultSet := rfl
@[simp] theorem State.skipIf_lowWrites (c : Bool) : (s.skipIf c).lowWrites = s.lowWrites := rfl
@[simp] theorem State.skipIf_reg (c : Bool) (q : Reg) : (s.skipIf c).reg q = s.reg q := rfl
@[simp] theorem State.skipIf_byte (c : Bool) (n : Nat) : (s.skipIf c).byte n = s.byte n := rfl
@[simp] theorem State.skipIf_stackEntry (c : Bool) (n : Nat) : (s.skipIf c).stackEntry n = s.stackEntry n := rfl
@[simp] theorem State.skipIf_cell (c : Bool) (n : Nat) : (s.skipIf c).cell n = s.cell n := rfl
@[simp] theorem State.skipIf_key (c : Bool) (n : Nat) : (s.skipIf c).key n = s.key n := rfl
@[simp] theorem State.skipIf_pressedKeys (c : Bool) : (s.skipIf c).pressedKeys = s.pressedKeys := rfl
@[simp] theorem State.skipIf_indexAddr (c : Bool) : (s.skipIf c).indexAddr = s.indexAddr := rfl

@[simp] theorem State.storeBytes_V (b : Nat) (l : List Byte) : (s.storeBytes b l).V = s.V := rfl
@[simp] theorem State.storeBytes_I (b : Nat) (l : List Byte) : (s.storeBytes b l).I = s.I := rfl
@[simp] theorem State.storeBytes_pc (b : Nat) (l : List Byte) : (s.storeBytes b l).pc = s.pc := rfl
@[simp] theorem State.storeBytes_STACK (b : Nat) (l : List Byte) : (s.storeBytes b l).STACK = s.STACK := rfl
@[simp] theorem State.storeBytes_SP (b : Nat) (l : List Byte) : (s.storeBytes b l).SP = s.SP := rfl
@[simp] theorem State.storeBytes_DT (b : Nat) (l : List Byte) : (s.storeBytes b l).DT = s.DT := rfl
@[simp] theorem State.storeBytes_ST (b : Nat) (l : List Byte) : (s.storeBytes b l).ST = s.ST := rfl
@[simp] theorem State.storeBytes_MEM (b : Nat) (l : List Byte) : (s.storeBytes b l).MEM = s.MEM.writeList b l := rfl
@[simp] theorem State.storeBytes_FB (b : Nat) (l : List Byte) : (s.storeBytes b l).FB = s.FB := rfl
@[simp] theorem State.storeBytes_KEY (b : Nat) (l : List Byte) : (s.storeBytes b l).KEY = s.KEY := rfl
@[simp] theorem State.storeBytes_paused (b : Nat) (l : List Byte) : (s.storeBytes b l).paused = s.paused := rfl
@[simp] theorem State.storeBytes_running (b : Nat) (l : List Byte) : (s.storeBytes b l).running = s.running := rfl
@[simp] theorem State.storeBytes_agenda (b : Nat) (l : List Byte) : (s.storeBytes b l).agenda = s.agenda := rfl
@[simp] theorem State.storeBytes_draws (b : Nat) (l : List Byte) : (s.storeBytes b l).draws = s.draws := rfl
@[simp] theorem State.storeBytes_outcome (b : Nat) (l : List Byte) : (s.storeBytes b l).outcome = s.outcome := rfl
@[simp] theorem State.storeBytes_outputs (b : Nat) (l : List Byte) : (s.storeBytes b l).outputs = s.outputs := rfl
@[simp] theorem State.storeBytes_faultSet (b : Nat) (l : List Byte) : (s.storeBytes b l).faultSet = s.faultSet := rfl
@[simp] theorem State.storeBytes_lowWrites (b : Nat) (l : List Byte) : (s.storeBytes b l).lowWrites = s.lowWrites ++ lowWritesOf s.pc b l.length := rfl
@[simp] theorem State.storeBytes_reg (b : Nat) (l : List Byte) (q : Reg) : (s.storeBytes b l).reg q = s.reg q := rfl
@[simp] theorem State.storeBytes_stackEntry (b : Nat) (l : List Byte) (n : Nat) : (s.storeBytes b l).stackEntry n = s.stackEntry n := rfl
@[simp] theorem State.storeBytes_cell (b : Nat) (l : List Byte) (n : Nat) : (s.storeBytes b l).cell n = s.cell n := rfl
@[simp] theorem State.storeBytes_key (b : Nat) (l : List Byte) (n : Nat) : (s.storeBytes b l).key n = s.key n := rfl
@[simp] theorem State.storeBytes_pressedKeys (b : Nat) (l : List Byte) : (s.storeBytes b l).pressedKeys = s.pressedKeys := rfl
@[simp] theorem State.storeBytes_indexAddr (b : Nat) (l : List Byte) : (s.storeBytes b l).indexAddr = s.indexAddr := rfl

@[simp] theorem State.push_V (a : Word) : (s.push a).V = s.V := rfl
@[simp] theorem State.push_I (a : Word) : (s.push a).I = s.I := rfl
@[simp] theorem State.push_pc (a : Word) : (s.push a).pc = s.pc := rfl
@[simp] theorem State.push_STACK (a : Word) : (s.push a).STACK = s.STACK.setIfInBounds s.SP.val a := rfl
@[simp] theorem State.push_SP (a : Word) : (s.push a).SP = Fin.ofNat 17 (s.SP.val + 1) := rfl
@[simp] theorem State.push_DT (a : Word) : (s.push a).DT = s.DT := rfl
@[simp] theorem State.push_ST (a : Word) : (s.push a).ST = s.ST := rfl
@[simp] theorem State.push_MEM (a : Word) : (s.push a).MEM = s.MEM := rfl
@[simp] theorem State.push_FB (a : Word) : (s.push a).FB = s.FB := rfl
@[simp] theorem State.push_KEY (a : Word) : (s.push a).KEY = s.KEY := rfl
@[simp] theorem State.push_paused (a : Word) : (s.push a).paused = s.paused := rfl
@[simp] theorem State.push_running (a : Word) : (s.push a).running = s.running := rfl
@[simp] theorem State.push_agenda (a : Word) : (s.push a).agenda = s.agenda := rfl
@[simp] theorem State.push_draws (a : Word) : (s.push a).draws = s.draws := rfl
@[simp] theorem State.push_outcome (a : Word) : (s.push a).outcome = s.outcome := rfl
@[simp] theorem State.push_outputs (a : Word) : (s.push a).outputs = s.outputs := rfl
@[simp] theorem State.push_faultSet (a : Word) : (s.push a).faultSet = s.faultSet := rfl
@[simp] theorem State.push_lowWrites (a : Word) : (s.push a).lowWrites = s.lowWrites := rfl
@[simp] theorem State.push_reg (a : Word) (q : Reg) : (s.push a).reg q = s.reg q := rfl
@[simp] theorem State.push_byte (a : Word) (n : Nat) : (s.push a).byte n = s.byte n := rfl
@[simp] theorem State.push_cell (a : Word) (n : Nat) : (s.push a).cell n = s.cell n := rfl
@[simp] theorem State.push_key (a : Word) (n : Nat) : (s.push a).key n = s.key n := rfl
@[simp] theorem State.push_pressedKeys (a : Word) : (s.push a).pressedKeys = s.pressedKeys := rfl
@[simp] theorem State.push_indexAddr (a : Word) : (s.push a).indexAddr = s.indexAddr := rfl

@[simp] theorem State.pop_V : (s.pop).V = s.V := rfl
@[simp] theorem State.pop_I : (s.pop).I = s.I := rfl
@[simp] theorem State.pop_pc : (s.pop).pc = s.pc := rfl
@[simp] theorem State.pop_STACK : (s.pop).STACK = s.STACK := rfl
@[simp] theorem State.pop_SP : (s.pop).SP = Fin.ofNat 17 (s.SP.val - 1) := rfl
@[simp] theorem State.pop_DT : (s.pop).DT = s.DT := rfl
@[simp] theorem State.pop_ST : (s.pop).ST = s.ST := rfl
@[simp] theorem State.pop_MEM : (s.pop).MEM = s.MEM := rfl
@[simp] theorem State.pop_FB : (s.pop).FB = s.FB := rfl
@[simp] theorem State.pop_KEY : (s.pop).KEY = s.KEY := rfl
@[simp] theorem State.pop_paused : (s.pop).paused = s.paused := rfl
@[simp] theorem State.pop_running : (s.pop).running = s.running := rfl
@[simp] theorem State.pop_agenda : (s.pop).agenda = s.agenda := rfl
@[simp] theorem State.pop_draws : (s.pop).draws = s.draws := rfl
@[simp] theorem State.pop_outcome : (s.pop).outcome = s.outcome := rfl
@[simp] theorem State.pop_outputs : (s.pop).outputs = s.outputs := rfl
@[simp] theorem State.pop_faultSet : (s.pop).faultSet = s.faultSet := rfl
@[simp] theorem State.pop_lowWrites : (s.pop).lowWrites = s.lowWrites := rfl
@[simp] theorem State.pop_reg (q : Reg) : (s.pop).reg q = s.reg q := rfl
@[simp] theorem State.pop_byte (n : Nat) : (s.pop).byte n = s.byte n := rfl
@[simp] theorem State.pop_stackEntry (n : Nat) : (s.pop).stackEntry n = s.stackEntry n := rfl
@[simp] theorem State.pop_cell (n : Nat) : (s.pop).cell n = s.cell n := rfl
@[simp] theorem State.pop_key (n : Nat) : (s.pop).key n = s.key n := rfl
@[simp] theorem State.pop_pressedKeys : (s.pop).pressedKeys = s.pressedKeys := rfl
@[simp] theorem State.pop_indexAddr : (s.pop).indexAddr = s.indexAddr := rfl

@[simp] theorem State.toggleCells_V (l : List Nat) : (s.toggleCells l).V = s.V := rfl
@[simp] theorem State.toggleCells_I (l : List Nat) : (s.toggleCells l).I = s.I := rfl
@[simp] theorem State.toggleCells_pc (l : List Nat) : (s.toggleCells l).pc = s.pc := rfl
@[simp] theorem State.toggleCells_STACK (l : List Nat) : (s.toggleCells l).STACK = s.STACK := rfl
@[simp] theorem State.toggleCells_SP (l : List Nat) : (s.toggleCells l).SP = s.SP := rfl
@[simp] theorem State.toggleCells_DT (l : List Nat) : (s.toggleCells l).DT = s.DT := rfl
@[simp] theorem State.toggleCells_ST (l : List Nat) : (s.toggleCells l).ST = s.ST := rfl
@[simp] theorem State.toggleCells_MEM (l : List Nat) : (s.toggleCells l).MEM = s.MEM := rfl
@[simp] theorem State.toggleCells_FB (l : List Nat) : (s.toggleCells l).FB = l.foldl (fun fb p => fb ^^^ cellMask p) s.FB := rfl
@[simp] theorem State.toggleCells_KEY (l : List Nat) : (s.toggleCells l).KEY = s.KEY := rfl
@[simp] theorem State.toggleCells_paused (l : List Nat) : (s.toggleCells l).paused = s.paused := rfl
@[simp] theorem State.toggleCells_running (l : List Nat) : (s.toggleCells l).running = s.running := rfl
@[simp] theorem State.toggleCells_agenda (l : List Nat) : (s.toggleCells l).agenda = s.agenda := rfl
@[simp] theorem State.toggleCells_draws (l : List Nat) : (s.toggleCells l).draws = s.draws := rfl
@[simp] theorem State.toggleCells_outcome (l : List Nat) : (s.toggleCells l).outcome = s.outcome := rfl
@[simp] theorem State.toggleCells_outputs (l : List Nat) : (s.toggleCells l).outputs = s.outputs := rfl
@[simp] theorem State.toggleCells_faultSet (l : List Nat) : (s.toggleCells l).faultSet = s.faultSet := rfl
@[simp] theorem State.toggleCells_lowWrites (l : List Nat) : (s.toggleCells l).lowWrites = s.lowWrites := rfl
@[simp] theorem State.toggleCells_reg (l : List Nat) (q : Reg) : (s.toggleCells l).reg q = s.reg q := rfl
@[simp] theorem State.toggleCells_byte (l : List Nat) (n : Nat) : (s.toggleCells l).byte n = s.byte n := rfl
@[simp] theorem State.toggleCells_stackEntry (l : List Nat) (n : Nat) : (s.toggleCells l).stackEntry n = s.stackEntry n := rfl
@[simp] theorem State.toggleCells_key (l : List Nat) (n : Nat) : (s.toggleCells l).key n = s.key n := rfl
@[simp] theorem State.toggleCells_pressedKeys (l : List Nat) : (s.toggleCells l).pressedKeys = s.pressedKeys := rfl
@[simp] theorem State.toggleCells_indexAddr (l : List Nat) : (s.toggleCells l).indexAddr = s.indexAddr := rfl

@[simp] theorem State.clearFB_V : (s.clearFB).V = s.V := rfl
@[simp] theorem State.clearFB_I : (s.clearFB).I = s.I := rfl
@[simp] theorem State.clearFB_pc : (s.clearFB).pc = s.pc := rfl
@[simp] theorem State.clearFB_STACK : (s.clearFB).STACK = s.STACK := rfl
@[simp] theorem State.clearFB_SP : (s.clearFB).SP = s.SP := rfl
@[simp] theorem State.clearFB_DT : (s.clearFB).DT = s.DT := rfl
@[simp] theorem State.clearFB_ST : (s.clearFB).ST = s.ST := rfl
@[simp] theorem State.clearFB_MEM : (s.clearFB).MEM = s.MEM := rfl
@[simp] theorem State.clearFB_FB : (s.clearFB).FB = 0#2048 := rfl
@[simp] theorem State.clearFB_KEY : (s.clearFB).KEY = s.KEY := rfl
@[simp] theorem State.clearFB_paused : (s.clearFB).paused = s.paused := rfl
@[simp] theorem State.clearFB_running : (s.clearFB).running = s.running := rfl
@[simp] theorem State.clearFB_agenda : (s.clearFB).agenda = s.agenda := rfl
@[simp] theorem State.clearFB_draws : (s.clearFB).draws = s.draws := rfl
@[simp] theorem State.clearFB_outcome : (s.clearFB).outcome = s.outcome := rfl
@[simp] theorem State.clearFB_outputs : (s.clearFB).outputs = s.outputs := rfl
@[simp] theorem State.clearFB_faultSet : (s.clearFB).faultSet = s.faultSet := rfl
@[simp] theorem State.clearFB_lowWrites : (s.clearFB).lowWrites = s.lowWrites := rfl
@[simp] theorem State.clearFB_reg (q : Reg) : (s.clearFB).reg q = s.reg q := rfl
@[simp] theorem State.clearFB_byte (n : Nat) : (s.clearFB).byte n = s.byte n := rfl
@[simp] theorem State.clearFB_stackEntry (n : Nat) : (s.clearFB).stackEntry n = s.stackEntry n := rfl
@[simp] theorem State.clearFB_key (n : Nat) : (s.clearFB).key n = s.key n := rfl
@[simp] theorem State.clearFB_pressedKeys : (s.clearFB).pressedKeys = s.pressedKeys := rfl
@[simp] theorem State.clearFB_indexAddr : (s.clearFB).indexAddr = s.indexAddr := rfl

@[simp] theorem State.setKey_V (k : Nat) (b : Bool) : (s.setKey k b).V = s.V := rfl
@[simp] theorem State.setKey_I (k : Nat) (b : Bool) : (s.setKey k b).I = s.I := rfl
@[simp] theorem State.setKey_pc (k : Nat) (b : Bool) : (s.setKey k b).pc = s.pc := rfl
@[simp] theorem State.setKey_STACK (k : Nat) (b : Bool) : (s.setKey k b).STACK = s.STACK := rfl
@[simp] theorem State.setKey_SP (k : Nat) (b : Bool) : (s.setKey k b).SP = s.SP := rfl
@[simp] theorem State.setKey_DT (k : Nat) (b : Bool) : (s.setKey k b).DT = s.DT := rfl
@[simp] theorem State.setKey_ST (k : Nat) (b : Bool) : (s.setKey k b).ST = s.ST := rfl
@[simp] theorem State.setKey_MEM (k : Nat) (b : Bool) : (s.setKey k b).MEM = s.MEM := rfl
@[simp] theorem State.setKey_FB (k : Nat) (b : Bool) : (s.setKey k b).FB = s.FB := rfl
@[simp] theorem State.setKey_KEY (k : Nat) (b : Bool) : (s.setKey k b).KEY = s.KEY.setIfInBounds k b := rfl
@[simp] theorem State.setKey_paused (k : Nat) (b : Bool) : (s.setKey k b).paused = s.paused := rfl
@[simp] theorem State.setKey_running (k : Nat) (b : Bool) : (s.setKey k b).running = s.running := rfl
@[simp] theorem State.setKey_agenda (k : Nat) (b : Bool) : (s.setKey k b).agenda = s.agenda := rfl
@[simp] theorem State.setKey_draws (k : Nat) (b : Bool) : (s.setKey k b).draws = s.draws := rfl
@[simp] theorem State.setKey_outcome (k : Nat) (b : Bool) : (s.setKey k b).outcome = s.outcome := rfl
@[simp] theorem State.setKey_outputs (k : Nat) (b : Bool) : (s.setKey k b).outputs = s.outputs := rfl
@[simp] theorem State.setKey_faultSet (k : Nat) (b : Bool) : (s.setKey k b).faultSet = s.faultSet := rfl
@[simp] theorem State.setKey_lowWrites (k : Nat) (b : Bool) : (s.setKey k b).lowWrites = s.lowWrites := rfl
@[simp] theorem State.setKey_reg (k : Nat) (b : Bool) (q : Reg) : (s.setKey k b).reg q = s.reg q := rfl
@[simp] theorem State.setKey_byte (k : Nat) (b : Bool) (n : Nat) : (s.setKey k b).byte n = s.byte n := rfl
@[simp] theorem State.setKey_stackEntry (k : Nat) (b : Bool) (n : Nat) : (s.setKey k b).stackEntry n = s.stackEntry n := rfl
@[simp] theorem State.setKey_cell (k : Nat) (b : Bool) (n : Nat) : (s.setKey k b).cell n = s.cell n := rfl
@[simp] theorem State.setKey_indexAddr (k : Nat) (b : Bool) : (s.setKey k b).indexAddr = s.indexAddr := rfl

@[simp] theorem State.countDraw_V : (s.countDraw).V = s.V := rfl
@[simp] theorem State.countDraw_I : (s.countDraw).I = s.I := rfl
@[simp] theorem State.countDraw_pc : (s.countDraw).pc = s.pc := rfl
@[simp] theorem State.countDraw_STACK : (s.countDraw).STACK = s.STACK := rfl
@[simp] theorem State.countDraw_SP : (s.countDraw).SP = s.SP := rfl
@[simp] theorem State.countDraw_DT : (s.countDraw).DT = s.DT := rfl
@[simp] theorem State.countDraw_ST : (s.countDraw).ST = s.ST := rfl
@[simp] theorem State.countDraw_MEM : (s.countDraw).MEM = s.MEM := rfl
@[simp] theorem State.countDraw_FB : (s.countDraw).FB = s.FB := rfl
@[simp] theorem State.countDraw_KEY : (s.countDraw).KEY = s.KEY := rfl
@[simp] theorem State.countDraw_paused : (s.countDraw).paused = s.paused := rfl
@[simp] theorem State.countDraw_running : (s.countDraw).running = s.running := rfl
@[simp] theorem State.countDraw_agenda : (s.countDraw).agenda = s.agenda := rfl
@[simp] theorem State.countDraw_draws : (s.countDraw).draws = s.draws + 1 := rfl
@[simp] theorem State.countDraw_outcome : (s.countDraw).outcome = s.outcome := rfl
@[simp] theorem State.countDraw_outputs : (s.countDraw).outputs = s.outputs := rfl
@[simp] theorem State.countDraw_faultSet : (s.countDraw).faultSet = s.faultSet := rfl
@[simp] theorem State.countDraw_lowWrites : (s.countDraw).lowWrites = s.lowWrites := rfl
@[simp] theorem State.countDraw_reg (q : Reg) : (s.countDraw).reg q = s.reg q := rfl
@[simp] theorem State.countDraw_byte (n : Nat) : (s.countDraw).byte n = s.byte n := rfl
@[simp] theorem State.countDraw_stackEntry (n : Nat) : (s.countDraw).stackEntry n = s.stackEntry n := rfl
@[simp] theorem State.countDraw_cell (n : Nat) : (s.countDraw).cell n = s.cell n := rfl
@[simp] theorem State.countDraw_key (n : Nat) : (s.countDraw).key n = s.key n := rfl
@[simp] theorem State.countDraw_pressedKeys : (s.countDraw).pressedKeys = s.pressedKeys := rfl
@[simp] theorem State.countDraw_indexAddr : (s.countDraw).indexAddr = s.indexAddr := rfl

@[simp] theorem State.emit_V (o : Output) : (s.emit o).V = s.V := rfl
@[simp] theorem State.emit_I (o : Output) : (s.emit o).I = s.I := rfl
@[simp] theorem State.emit_pc (o : Output) : (s.emit o).pc = s.pc := rfl
@[simp] theorem State.emit_STACK (o : Output) : (s.emit o).STACK = s.STACK := rfl
@[simp] theorem State.emit_SP (o : Output) : (s.emit o).SP = s.SP := rfl
@[simp] theorem State.emit_DT (o : Output) : (s.emit o).DT = s.DT := rfl
@[simp] theorem State.emit_ST (o : Output) : (s.emit o).ST = s.ST := rfl
@[simp] theorem State.emit_MEM (o : Output) : (s.emit o).MEM = s.MEM := rfl
@[simp] theorem State.emit_FB (o : Output) : (s.emit o).FB = s.FB := rfl
@[simp] theorem State.emit_KEY (o : Output) : (s.emit o).KEY = s.KEY := rfl
@[simp] theorem State.emit_paused (o : Output) : (s.emit o).paused = s.paused := rfl
@[simp] theorem State.emit_running (o : Output) : (s.emit o).running = s.running := rfl
@[simp] theorem State.emit_agenda (o : Output) : (s.emit o).agenda = s.agenda := rfl
@[simp] theorem State.emit_draws (o : Output) : (s.emit o).draws = s.draws := rfl
@[simp] theorem State.emit_outcome (o : Output) : (s.emit o).outcome = s.outcome := rfl
@[simp] theorem State.emit_outputs (o : Output) : (s.emit o).outputs = s.outputs ++ [o] := rfl
@[simp] theorem State.emit_faultSet (o : Output) : (s.emit o).faultSet = s.faultSet := rfl
@[simp] theorem State.emit_lowWrites (o : Output) : (s.emit o).lowWrites = s.lowWrites := rfl
@[simp] theorem State.emit_reg (o : Output) (q : Reg) : (s.emit o).reg q = s.reg q := rfl
@[simp] theorem State.emit_byte (o : Output) (n : Nat) : (s.emit o).byte n = s.byte n := rfl
@[simp] theorem State.emit_stackEntry (o : Output) (n : Nat) : (s.emit o).stackEntry n = s.stackEntry n := rfl
@[simp] theorem State.emit_cell (o : Output) (n : Nat) : (s.emit o).cell n = s.cell n := rfl
@[simp] theorem State.emit_key (o : Output) (n : Nat) : (s.emit o).key n = s.key n := rfl
@[simp] theorem State.emit_pressedKeys (o : Output) : (s.emit o).pressedKeys = s.pressedKeys := rfl
@[simp] theorem State.emit_indexAddr (o : Output) : (s.emit o).indexAddr = s.indexAddr := rfl

@[simp] theorem State.fresh_V : (s.fresh).V = s.V := rfl
@[simp] theorem State.fresh_I : (s.fresh).I = s.I := rfl
@[simp] theorem State.fresh_pc : (s.fresh).pc = s.pc := rfl
@[simp] theorem State.fresh_STACK : (s.fresh).STACK = s.STACK := rfl
@[simp] theorem State.fresh_SP : (s.fresh).SP = s.SP := rfl
@[simp] theorem State.fresh_DT : (s.fresh).DT = s.DT := rfl
@[simp] theorem State.fresh_ST : (s.fresh).ST = s.ST := rfl
@[simp] theorem State.fresh_MEM : (s.fresh).MEM = s.MEM := rfl
@[simp] theorem State.fresh_FB : (s.fresh).FB = s.FB := rfl
@[simp] theorem State.fresh_KEY : (s.fresh).KEY = s.KEY := rfl
@[simp] theorem State.fresh_paused : (s.fresh).paused = s.paused := rfl
@[simp] theorem State.fresh_running : (s.fresh).running = s.running := rfl
@[simp] theorem State.fresh_agenda : (s.fresh).agenda = s.agenda := rfl
@[simp] theorem State.fresh_draws : (s.fresh).draws = s.draws := rfl
@[simp] theorem State.fresh_outcome : (s.fresh).outcome = none := rfl
@[simp] theorem State.fresh_outputs : (s.fresh).outputs = [] := rfl
@[simp] theorem State.fresh_faultSet : (s.fresh).faultSet = s.faultSet := rfl
@[simp] theorem State.fresh_lowWrites : (s.fresh).lowWrites = s.lowWrites := rfl
@[simp] theorem State.fresh_reg (q : Reg) : (s.fresh).reg q = s.reg q := rfl
@[simp] theorem State.fresh_byte (n : Nat) : (s.fresh).byte n = s.byte n := rfl
@[simp] theorem State.fresh_stackEntry (n : Nat) : (s.fresh).stackEntry n = s.stackEntry n := rfl
@[simp] theorem State.fresh_cell (n : Nat) : (s.fresh).cell n = s.cell n := rfl
@[simp] theorem State.fresh_key (n : Nat) : (s.fresh).key n = s.key n := rfl
@[simp] theorem State.fresh_pressedKeys : (s.fresh).pressedKeys = s.pressedKeys := rfl
@[simp] theorem State.fresh_indexAddr : (s.fresh).indexAddr = s.indexAddr := rfl

@[simp] theorem State.beginExec_V : (s.beginExec).V = s.V := rfl
@[simp] theorem State.beginExec_I : (s.beginExec).I = s.I := rfl
@[simp] theorem State.beginExec_pc : (s.beginExec).pc = s.pc := rfl
@[simp] theorem State.beginExec_STACK : (s.beginExec).STACK = s.STACK := rfl
@[simp] theorem State.beginExec_SP : (s.beginExec).SP = s.SP := rfl
@[simp] theorem State.beginExec_DT : (s.beginExec).DT = s.DT := rfl
@[simp] theorem State.beginExec_ST : (s.beginExec).ST = s.ST := rfl
@[simp] theorem State.beginExec_MEM : (s.beginExec).MEM = s.MEM := rfl
@[simp] theorem State.beginExec_FB : (s.beginExec).FB = s.FB := rfl
@[simp] theorem State.beginExec_KEY : (s.beginExec).KEY = s.KEY := rfl
@[simp] theorem State.beginExec_paused : (s.beginExec).paused = s.paused := rfl
@[simp] theorem State.beginExec_running : (s.beginExec).running = s.running := rfl
@[simp] theorem State.beginExec_agenda : (s.beginExec).agenda = s.agenda := rfl
@[simp] theorem State.beginExec_draws : (s.beginExec).draws = s.draws := rfl
@[simp] theorem State.beginExec_outcome : (s.beginExec).outcome = some .completed := rfl
@[simp] theorem State.beginExec_outputs : (s.beginExec).outputs = [] := rfl
@[simp] theorem State.beginExec_faultSet : (s.beginExec).faultSet = s.faultSet := rfl
@[simp] theorem State.beginExec_lowWrites : (s.beginExec).lowWrites = s.lowWrites := rfl
@[simp] theorem State.beginExec_reg (q : Reg) : (s.beginExec).reg q = s.reg q := rfl
@[simp] theorem State.beginExec_byte (n : Nat) : (s.beginExec).byte n = s.byte n := rfl
@[simp] theorem State.beginExec_stackEntry (n : Nat) : (s.beginExec).stackEntry n = s.stackEntry n := rfl
@[simp] theorem State.beginExec_cell (n : Nat) : (s.beginExec).cell n = s.cell n := rfl
@[simp] theorem State.beginExec_key (n : Nat) : (s.beginExec).key n = s.key n := rfl
@[simp] theorem State.beginExec_pressedKeys : (s.beginExec).pressedKeys = s.pressedKeys := rfl
@[simp] theorem State.beginExec_indexAddr : (s.beginExec).indexAddr = s.indexAddr := rfl

@[simp] theorem State.noProgress_V (o : StepOutcome) : (s.noProgress o).V = s.V := rfl
@[simp] theorem State.noProgress_I (o : StepOutcome) : (s.noProgress o).I = s.I := rfl
@[simp] theorem State.noProgress_pc (o : StepOutcome) : (s.noProgress o).pc = s.pc := rfl
@[simp] theorem State.noProgress_STACK (o : StepOutcome) : (s.noProgress o).STACK = s.STACK := rfl
@[simp] theorem State.noProgress_SP (o : StepOutcome) : (s.noProgress o).SP = s.SP := rfl
@[simp] theorem State.noProgress_DT (o : StepOutcome) : (s.noProgress o).DT = s.DT := rfl
@[simp] theorem State.noProgress_ST (o : StepOutcome) : (s.noProgress o).ST = s.ST := rfl
@[simp] theorem State.noProgress_MEM (o : StepOutcome) : (s.noProgress o).MEM = s.MEM := rfl
@[simp] theorem State.noProgress_FB (o : StepOutcome) : (s.noProgress o).FB = s.FB := rfl
@[simp] theorem State.noProgress_KEY (o : StepOutcome) : (s.noProgress o).KEY = s.KEY := rfl
@[simp] theorem State.noProgress_paused (o : StepOutcome) : (s.noProgress o).paused = s.paused := rfl
@[simp] theorem State.noProgress_running (o : StepOutcome) : (s.noProgress o).running = s.running := rfl
@[simp] theorem State.noProgress_agenda (o : StepOutcome) : (s.noProgress o).agenda = s.agenda := rfl
@[simp] theorem State.noProgress_draws (o : StepOutcome) : (s.noProgress o).draws = s.draws := rfl
@[simp] theorem State.noProgress_outcome (o : StepOutcome) : (s.noProgress o).outcome = some o := rfl
@[simp] theorem State.noProgress_outputs (o : StepOutcome) : (s.noProgress o).outputs = [] := rfl
@[simp] theorem State.noProgress_faultSet (o : StepOutcome) : (s.noProgress o).faultSet = s.faultSet := rfl
@[simp] theorem State.noProgress_lowWrites (o : StepOutcome) : (s.noProgress o).lowWrites = s.lowWrites := rfl
@[simp] theorem State.noProgress_reg (o : StepOutcome) (q : Reg) : (s.noProgress o).reg q = s.reg q := rfl
@[simp] theorem State.noProgress_byte (o : StepOutcome) (n : Nat) : (s.noProgress o).byte n = s.byte n := rfl
@[simp] theorem State.noProgress_stackEntry (o : StepOutcome) (n : Nat) : (s.noProgress o).stackEntry n = s.stackEntry n := rfl
@[simp] theorem State.noProgress_cell (o : StepOutcome) (n : Nat) : (s.noProgress o).cell n = s.cell n := rfl
@[simp] theorem State.noProgress_key (o : StepOutcome) (n : Nat) : (s.noProgress o).key n = s.key n := rfl
@[simp] theorem State.noProgress_pressedKeys (o : StepOutcome) : (s.noProgress o).pressedKeys = s.pressedKeys := rfl
@[simp] theorem State.noProgress_indexAddr (o : StepOutcome) : (s.noProgress o).indexAddr = s.indexAddr := rfl

@[simp] theorem State.report_V (w : Option Word) (f : Fault) : (s.report w f).V = s.V := rfl
@[simp] theorem State.report_I (w : Option Word) (f : Fault) : (s.report w f).I = s.I := rfl
@[simp] theorem State.report_pc (w : Option Word) (f : Fault) : (s.report w f).pc = s.pc := rfl
@[simp] theorem State.report_STACK (w : Option Word) (f : Fault) : (s.report w f).STACK = s.STACK := rfl
@[simp] theorem State.report_SP (w : Option Word) (f : Fault) : (s.report w f).SP = s.SP := rfl
@[simp] theorem State.report_DT (w : Option Word) (f : Fault) : (s.report w f).DT = s.DT := rfl
@[simp] theorem State.report_ST (w : Option Word) (f : Fault) : (s.report w f).ST = s.ST := rfl
@[simp] theorem State.report_MEM (w : Option Word) (f : Fault) : (s.report w f).MEM = s.MEM := rfl
@[simp] theorem State.report_FB (w : Option Word) (f : Fault) : (s.report w f).FB = s.FB := rfl
@[simp] theorem State.report_KEY (w : Option Word) (f : Fault) : (s.report w f).KEY = s.KEY := rfl
@[simp] theorem State.report_paused (w : Option Word) (f : Fault) : (s.report w f).paused = s.paused := rfl
@[simp] theorem State.report_running (w : Option Word) (f : Fault) : (s.report w f).running = s.running := rfl
@[simp] theorem State.report_agenda (w : Option Word) (f : Fault) : (s.report w f).agenda = s.agenda := rfl
@[simp] theorem State.report_draws (w : Option Word) (f : Fault) : (s.report w f).draws = s.draws := rfl
@[simp] theorem State.report_outcome (w : Option Word) (f : Fault) : (s.report w f).outcome = some (.faulted f) := rfl
@[simp] theorem State.report_outputs (w : Option Word) (f : Fault) : (s.report w f).outputs = [.diagnostic (s.diagnosticOf w f)] := rfl
@[simp] theorem State.report_lowWrites (w : Option Word) (f : Fault) : (s.report w f).lowWrites = s.lowWrites := rfl
@[simp] theorem State.report_reg (w : Option Word) (f : Fault) (q : Reg) : (s.report w f).reg q = s.reg q := rfl
@[simp] theorem State.report_byte (w : Option Word) (f : Fault) (n : Nat) : (s.report w f).byte n = s.byte n := rfl
@[simp] theorem State.report_stackEntry (w : Option Word) (f : Fault) (n : Nat) : (s.report w f).stackEntry n = s.stackEntry n := rfl
@[simp] theorem State.report_cell (w : Option Word) (f : Fault) (n : Nat) : (s.report w f).cell n = s.cell n := rfl
@[simp] theorem State.report_key (w : Option Word) (f : Fault) (n : Nat) : (s.report w f).key n = s.key n := rfl
@[simp] theorem State.report_pressedKeys (w : Option Word) (f : Fault) : (s.report w f).pressedKeys = s.pressedKeys := rfl
@[simp] theorem State.report_indexAddr (w : Option Word) (f : Fault) : (s.report w f).indexAddr = s.indexAddr := rfl
@[simp] theorem State.raise_V (f : Fault) : (s.raise f).V = s.V := rfl
@[simp] theorem State.raise_I (f : Fault) : (s.raise f).I = s.I := rfl
@[simp] theorem State.raise_pc (f : Fault) : (s.raise f).pc = s.pc := rfl
@[simp] theorem State.raise_STACK (f : Fault) : (s.raise f).STACK = s.STACK := rfl
@[simp] theorem State.raise_SP (f : Fault) : (s.raise f).SP = s.SP := rfl
@[simp] theorem State.raise_DT (f : Fault) : (s.raise f).DT = s.DT := rfl
@[simp] theorem State.raise_ST (f : Fault) : (s.raise f).ST = s.ST := rfl
@[simp] theorem State.raise_MEM (f : Fault) : (s.raise f).MEM = s.MEM := rfl
@[simp] theorem State.raise_FB (f : Fault) : (s.raise f).FB = s.FB := rfl
@[simp] theorem State.raise_KEY (f : Fault) : (s.raise f).KEY = s.KEY := rfl
@[simp] theorem State.raise_paused (f : Fault) : (s.raise f).paused = s.paused := rfl
@[simp] theorem State.raise_running (f : Fault) : (s.raise f).running = s.running := rfl
@[simp] theorem State.raise_agenda (f : Fault) : (s.raise f).agenda = s.agenda := rfl
@[simp] theorem State.raise_draws (f : Fault) : (s.raise f).draws = s.draws := rfl
@[simp] theorem State.raise_outcome (f : Fault) : (s.raise f).outcome = some (.faulted f) := rfl
@[simp] theorem State.raise_outputs (f : Fault) : (s.raise f).outputs = [.diagnostic (s.diagnosticOf (some (fetchWord s)) f)] := rfl
@[simp] theorem State.raise_lowWrites (f : Fault) : (s.raise f).lowWrites = s.lowWrites := rfl
@[simp] theorem State.raise_reg (f : Fault) (q : Reg) : (s.raise f).reg q = s.reg q := rfl
@[simp] theorem State.raise_byte (f : Fault) (n : Nat) : (s.raise f).byte n = s.byte n := rfl
@[simp] theorem State.raise_stackEntry (f : Fault) (n : Nat) : (s.raise f).stackEntry n = s.stackEntry n := rfl
@[simp] theorem State.raise_cell (f : Fault) (n : Nat) : (s.raise f).cell n = s.cell n := rfl
@[simp] theorem State.raise_key (f : Fault) (n : Nat) : (s.raise f).key n = s.key n := rfl
@[simp] theorem State.raise_pressedKeys (f : Fault) : (s.raise f).pressedKeys = s.pressedKeys := rfl
@[simp] theorem State.raise_indexAddr (f : Fault) : (s.raise f).indexAddr = s.indexAddr := rfl

end

end Sys2Proof.Machine
end

