-- ==== Sys2Proof/Laws/Ops.lean ====
section
/-! SUPPORT. One lemma per shared operation: what it leaves in every register, cell, key, entry and byte. -/

namespace Sys2Proof.Machine

theorem reg_ext_toNat {q r : Reg} : q.toNat = r.toNat ↔ q = r := BitVec.toNat_inj

/-- Every register after a register write. -/
theorem State.reg_setReg (s : State) (r : Reg) (v : Byte) (q : Reg) :
    (s.setReg r v).reg q = if q = r then v else s.reg q := by
  by_cases h : q = r
  · subst h
    simp [State.reg, State.setReg]
  · have : r.toNat ≠ q.toNat := fun e => h (reg_ext_toNat.mp e.symm)
    simp [State.reg, State.setReg, h, Vector.getElem_set_ne, this]

@[simp] theorem State.reg_setReg_same (s : State) (r : Reg) (v : Byte) : (s.setReg r v).reg r = v := by
  simp [State.reg_setReg]

/-- Every byte after a store. -/
theorem State.byte_storeBytes (s : State) (b : Nat) (l : List Byte) (a : Nat) :
    (s.storeBytes b l).byte a = if b ≤ a ∧ a < b + l.length then l.getD (a - b) 0#8 else s.byte a :=
  Memory.read_writeList s.MEM b l a

/-- The check of a range raises nothing exactly when every address lies below 0x1000 (R64). -/
theorem rangeFault_eq_none {base n : Nat} : rangeFault base n = none ↔ n = 0 ∨ base + n ≤ Config.memSize := by
  have : Config.memSize = 4096 := rfl
  unfold rangeFault
  split <;> simp <;> omega

/-- Otherwise it raises MemoryBounds of the lowest address that does not exist (R255). -/
theorem rangeFault_eq_some {base n : Nat} {f : Fault} :
    rangeFault base n = some f ↔
      n ≠ 0 ∧ Config.memSize < base + n ∧ f = .memoryBounds (max base Config.memSize) := by
  have : Config.memSize = 4096 := rfl
  unfold rangeFault
  split
  · next h =>
    constructor
    · intro e
      cases e
      exact ⟨h.1, by omega, rfl⟩
    · rintro ⟨_, _, rfl⟩
      rfl
  · next h =>
    constructor
    · intro e
      cases e
    · rintro ⟨h1, h2, _⟩
      exact absurd ⟨h1, by omega⟩ h

/-- Every stack entry after a push that has a free entry (R26). -/
theorem State.stackEntry_push (s : State) (a : Word) (h : s.SP.val < 16) (k : Nat) :
    (s.push a).stackEntry k = if k = s.SP.val then a else s.stackEntry k := by
  simp only [State.stackEntry, State.push, Vector.getElem?_setIfInBounds]
  by_cases hk : s.SP.val = k
  · subst hk
    simp [h]
  · have : ¬ k = s.SP.val := fun e => hk e.symm
    simp [hk, this]

@[simp] theorem State.val_SP_push (s : State) (a : Word) (h : s.SP.val < 16) :
    (s.push a).SP.val = s.SP.val + 1 := by
  simp [Fin.ofNat]
  omega

@[simp] theorem State.val_SP_pop (s : State) : s.pop.SP.val = s.SP.val - 1 := by
  have := s.SP.isLt
  simp [Fin.ofNat]
  omega

@[simp] theorem State.stackEntry_pop (s : State) (k : Nat) : s.pop.stackEntry k = s.stackEntry k := rfl

/-- Every key after a key input (R286). -/
theorem State.key_setKey (s : State) (k : Nat) (b : Bool) (hk : k < 16) (j : Nat) :
    (s.setKey k b).key j = if j = k then b else s.key j := by
  simp only [State.key, State.setKey, Vector.getElem?_setIfInBounds]
  by_cases h : k = j
  · subst h
    simp [hk]
  · have : ¬ j = k := fun e => h e.symm
    simp [h, this]

/-- Every cell after a list of cells is toggled: the parity of how often the list names it (R213). -/
theorem State.cell_toggleCells (s : State) (cells : List Nat) (p : Nat) :
    (s.toggleCells cells).cell p = (s.cell p ^^ decide (p < 2048 ∧ cells.count p % 2 = 1)) := by
  have key : ∀ fb : BitVec 2048, (cells.foldl (fun fb p => fb ^^^ cellMask p) fb).getLsbD p =
      (fb.getLsbD p ^^ decide (p < 2048 ∧ cells.count p % 2 = 1)) := by
    induction cells with
    | nil => intro fb; simp
    | cons q cells ih =>
      intro fb
      rw [List.foldl_cons, ih, BitVec.getLsbD_xor, cellMask, BitVec.getLsbD_twoPow, List.count_cons]
      by_cases hp : p < 2048
      · by_cases hq : q = p
        · subst hq
          rcases Nat.mod_two_eq_zero_or_one (cells.count q) with hc | hc <;>
            simp [hp, hc, Nat.add_mod]
        · simp [hp, hq]
      · by_cases hq : q = p
        · subst hq
          simp [hp]
        · simp [hp, hq]
  exact key s.FB

@[simp] theorem State.cell_clearFB (s : State) (p : Nat) : s.clearFB.cell p = false := by
  simp [State.cell]

/-- What writing a list to the registers from V[k] up leaves in every register (R197). -/
theorem State.reg_setRegsFrom (s : State) (k : Nat) (l : List Byte) (h : k + l.length ≤ 16) (q : Reg) :
    (s.setRegsFrom k l).reg q =
      if k ≤ q.toNat ∧ q.toNat < k + l.length then l.getD (q.toNat - k) 0#8 else s.reg q := by
  induction l generalizing s k with
  | nil => simp [State.setRegsFrom]
  | cons v l ih =>
    simp only [List.length_cons] at h
    rw [State.setRegsFrom, ih _ _ (by omega), State.reg_setReg]
    have hq : (q = BitVec.ofNat 4 k) ↔ q.toNat = k := by
      rw [← reg_ext_toNat, BitVec.toNat_ofNat, Nat.mod_eq_of_lt (by omega)]
    by_cases he : q.toNat = k
    · have h1 : ¬(k + 1 ≤ q.toNat ∧ q.toNat < k + 1 + l.length) := by omega
      have h2 : k ≤ q.toNat ∧ q.toNat < k + (v :: l).length := by simp only [List.length_cons]; omega
      rw [if_neg h1, if_pos (hq.mpr he), if_pos h2, he, Nat.sub_self]
      rfl
    · rw [if_neg (mt hq.mp he)]
      by_cases hin : k + 1 ≤ q.toNat ∧ q.toNat < k + 1 + l.length
      · have h2 : k ≤ q.toNat ∧ q.toNat < k + (v :: l).length := by simp only [List.length_cons]; omega
        have h3 : q.toNat - k = (q.toNat - (k + 1)) + 1 := by omega
        rw [if_pos hin, if_pos h2, h3, List.getD_cons_succ]
      · have h2 : ¬(k ≤ q.toNat ∧ q.toNat < k + (v :: l).length) := by simp only [List.length_cons]; omega
        rw [if_neg hin, if_neg h2]

/-- Writing registers changes nothing but V. -/
theorem State.setRegsFrom_frame (s : State) (k : Nat) (l : List Byte) :
    s.setRegsFrom k l = { s with V := (s.setRegsFrom k l).V } := by
  induction l generalizing s k with
  | nil => rfl
  | cons v l ih =>
    rw [State.setRegsFrom, ih]
    rfl

/-- The k-th of the first n registers. -/
theorem State.getD_regList (s : State) (n k : Nat) (h : k < n) :
    (s.regList n).getD k 0#8 = s.reg (BitVec.ofNat 4 k) := by
  simp [State.regList, List.getD, h]

@[simp] theorem State.length_regList (s : State) (n : Nat) : (s.regList n).length = n := by
  simp [State.regList]

/-- Every key a wait may store is a pressed one (R233). -/
theorem selectKey_mem (n : Nat) {P : List Nat} (h : P ≠ []) : selectKey n P ∈ P := by
  have hlen : 0 < P.length := List.length_pos_iff.mpr h
  have hlt := Nat.mod_lt (Config.keyDraw n) hlen
  simp [selectKey, List.getD, hlt]

theorem State.mem_pressedKeys (s : State) (k : Nat) : k ∈ s.pressedKeys ↔ k < 16 ∧ s.key k = true := by
  simp [State.pressedKeys, Config.keyCount]

theorem mem_lowWritesOf {pc : Word} {base n : Nat} {e : LowWrite} :
    e ∈ lowWritesOf pc base n ↔ e.pc = pc ∧ base ≤ e.addr ∧ e.addr < base + n ∧ e.addr < Config.loadOffset := by
  obtain ⟨epc, ea⟩ := e
  simp only [lowWritesOf, List.mem_map, List.mem_filter, List.mem_range, decide_eq_true_eq, LowWrite.mk.injEq]
  constructor
  · rintro ⟨a, ⟨⟨k, hk, rfl⟩, ha⟩, rfl, rfl⟩
    exact ⟨rfl, by omega, by omega, ha⟩
  · rintro ⟨rfl, h1, h2, h3⟩
    exact ⟨ea, ⟨⟨ea - base, by omega, by omega⟩, h3⟩, rfl, rfl⟩

/-- With the flag last, the flag is in VF whatever the result's register (R150). -/
theorem withFlag_flagLast (flag : Byte) (write : State → State) (s : State) :
    withFlag .flagLast flag write s = (write s).setReg VF flag := rfl

theorem withFlag_flagFirst (flag : Byte) (write : State → State) (s : State) :
    withFlag .flagFirst flag write s = write (s.setReg VF flag) := rfl

end Sys2Proof.Machine
end

