-- ==== Sys2Proof/Laws/Display.lean ====
section
/-! SUPPORT. The cells of a sprite. -/

namespace Sys2Proof.Machine

/-- The cells of one sprite row. -/
theorem mem_rowCells {x y : Byte} {r : Nat} {b : Byte} {p : Nat} :
    p ∈ rowCells x y r b ↔ ∃ c, c < 8 ∧ rowPixel b c = true ∧ p = flatIndex x y r c := by
  simp only [rowCells, List.mem_map, List.mem_filter, List.mem_range]
  constructor
  · rintro ⟨c, ⟨h1, h2⟩, rfl⟩; exact ⟨c, h1, h2, rfl⟩
  · rintro ⟨c, h1, h2, rfl⟩; exact ⟨c, ⟨h1, h2⟩, rfl⟩

/-- The cells of a sprite. -/
theorem mem_spriteCells {x y : Byte} {r0 : Nat} {rows : List Byte} {p : Nat} :
    p ∈ spriteCells x y r0 rows ↔
      ∃ r c, r < rows.length ∧ c < 8 ∧ rowPixel (rows.getD r 0#8) c = true ∧ p = flatIndex x y (r0 + r) c := by
  induction rows generalizing r0 with
  | nil => simp [spriteCells]
  | cons b rest ih =>
    rw [spriteCells, List.mem_append, ih, mem_rowCells]
    constructor
    · rintro (⟨c, h1, h2, rfl⟩ | ⟨r, c, h1, h2, h3, rfl⟩)
      · exact ⟨0, c, by simp, h1, by simpa using h2, rfl⟩
      · exact ⟨r + 1, c, by simp; omega, h2, by simpa using h3, by congr 1; omega⟩
    · rintro ⟨r, c, h1, h2, h3, rfl⟩
      cases r with
      | zero => exact Or.inl ⟨c, h2, by simpa using h3, rfl⟩
      | succ r => exact Or.inr ⟨r, c, by simp at h1; omega, h2, by simpa using h3, by congr 1; omega⟩

/-- Two pixels of one draw never share a cell. -/
theorem flatIndex_inj {x y : Byte} {r c r' c' : Nat} (hr : r < 15) (hr' : r' < 15) (hc : c < 8) (hc' : c' < 8)
    (h : flatIndex x y r c = flatIndex x y r' c') : r = r' ∧ c = c' := by
  simp only [flatIndex, Config.fbCells, Config.fbColumns] at h
  split at h <;> split at h <;> omega

end Sys2Proof.Machine
end

