-- ==== Sys2Proof/Laws/PerInstr.lean ====
section
/-! SUPPORT. The family MatchesItsRow: the word of an instruction matches its own row of the opcode map R86. One lemma per
constructor of Instr. -/

namespace Sys2Proof.Laws.MatchesItsRow

open Sys2Proof

/-- The instruction's word under the mask of its row is the row's value, and the row is one of the map (R86). -/
def Statement (i : Instr) : Prop :=
  encodeWord i &&& (opcodeRow i).mask = (opcodeRow i).value ∧ opcodeRow i ∈ opcodeTable

theorem cls : Statement .cls := ⟨by decide, by decide⟩

theorem ret : Statement .ret := ⟨by decide, by decide⟩

theorem jp (nnn : Addr) : Statement (.jp nnn) := by
  refine ⟨(and_maskT _).trans ?_, ?_⟩ <;> simp [encodeWord, opcodeRow, opcodeTable, opcodeRowsLow, opcodeRowsMid, opcodeRowsHigh]

theorem call (nnn : Addr) : Statement (.call nnn) := by
  refine ⟨(and_maskT _).trans ?_, ?_⟩ <;> simp [encodeWord, opcodeRow, opcodeTable, opcodeRowsLow, opcodeRowsMid, opcodeRowsHigh]

theorem seImm (x : Reg) (nn : Byte) : Statement (.seImm x nn) := by
  refine ⟨(and_maskT _).trans ?_, ?_⟩ <;> simp [encodeWord, opcodeRow, opcodeTable, opcodeRowsLow, opcodeRowsMid, opcodeRowsHigh]

theorem sneImm (x : Reg) (nn : Byte) : Statement (.sneImm x nn) := by
  refine ⟨(and_maskT _).trans ?_, ?_⟩ <;> simp [encodeWord, opcodeRow, opcodeTable, opcodeRowsLow, opcodeRowsMid, opcodeRowsHigh]

theorem seReg (x y : Reg) : Statement (.seReg x y) := by
  refine ⟨(and_maskTN _).trans ?_, ?_⟩ <;> simp [encodeWord, opcodeRow, opcodeTable, opcodeRowsLow, opcodeRowsMid, opcodeRowsHigh]

theorem ldImm (x : Reg) (nn : Byte) : Statement (.ldImm x nn) := by
  refine ⟨(and_maskT _).trans ?_, ?_⟩ <;> simp [encodeWord, opcodeRow, opcodeTable, opcodeRowsLow, opcodeRowsMid, opcodeRowsHigh]

theorem addImm (x : Reg) (nn : Byte) : Statement (.addImm x nn) := by
  refine ⟨(and_maskT _).trans ?_, ?_⟩ <;> simp [encodeWord, opcodeRow, opcodeTable, opcodeRowsLow, opcodeRowsMid, opcodeRowsHigh]

theorem ldReg (x y : Reg) : Statement (.ldReg x y) := by
  refine ⟨(and_maskTN _).trans ?_, ?_⟩ <;> simp [encodeWord, opcodeRow, opcodeTable, opcodeRowsLow, opcodeRowsMid, opcodeRowsHigh]

theorem orReg (x y : Reg) : Statement (.orReg x y) := by
  refine ⟨(and_maskTN _).trans ?_, ?_⟩ <;> simp [encodeWord, opcodeRow, opcodeTable, opcodeRowsLow, opcodeRowsMid, opcodeRowsHigh]

theorem andReg (x y : Reg) : Statement (.andReg x y) := by
  refine ⟨(and_maskTN _).trans ?_, ?_⟩ <;> simp [encodeWord, opcodeRow, opcodeTable, opcodeRowsLow, opcodeRowsMid, opcodeRowsHigh]

theorem xorReg (x y : Reg) : Statement (.xorReg x y) := by
  refine ⟨(and_maskTN _).trans ?_, ?_⟩ <;> simp [encodeWord, opcodeRow, opcodeTable, opcodeRowsLow, opcodeRowsMid, opcodeRowsHigh]

theorem addReg (x y : Reg) : Statement (.addReg x y) := by
  refine ⟨(and_maskTN _).trans ?_, ?_⟩ <;> simp [encodeWord, opcodeRow, opcodeTable, opcodeRowsLow, opcodeRowsMid, opcodeRowsHigh]

theorem subReg (x y : Reg) : Statement (.subReg x y) := by
  refine ⟨(and_maskTN _).trans ?_, ?_⟩ <;> simp [encodeWord, opcodeRow, opcodeTable, opcodeRowsLow, opcodeRowsMid, opcodeRowsHigh]

theorem shr (x : Reg) (y : Nibble) : Statement (.shr x y) := by
  refine ⟨(and_maskTN _).trans ?_, ?_⟩ <;> simp [encodeWord, opcodeRow, opcodeTable, opcodeRowsLow, opcodeRowsMid, opcodeRowsHigh]

theorem subnReg (x y : Reg) : Statement (.subnReg x y) := by
  refine ⟨(and_maskTN _).trans ?_, ?_⟩ <;> simp [encodeWord, opcodeRow, opcodeTable, opcodeRowsLow, opcodeRowsMid, opcodeRowsHigh]

theorem shl (x : Reg) (y : Nibble) : Statement (.shl x y) := by
  refine ⟨(and_maskTN _).trans ?_, ?_⟩ <;> simp [encodeWord, opcodeRow, opcodeTable, opcodeRowsLow, opcodeRowsMid, opcodeRowsHigh]

theorem sneReg (x y : Reg) : Statement (.sneReg x y) := by
  refine ⟨(and_maskTN _).trans ?_, ?_⟩ <;> simp [encodeWord, opcodeRow, opcodeTable, opcodeRowsLow, opcodeRowsMid, opcodeRowsHigh]

theorem ldI (nnn : Addr) : Statement (.ldI nnn) := by
  refine ⟨(and_maskT _).trans ?_, ?_⟩ <;> simp [encodeWord, opcodeRow, opcodeTable, opcodeRowsLow, opcodeRowsMid, opcodeRowsHigh]

theorem jpV0 (nnn : Addr) : Statement (.jpV0 nnn) := by
  refine ⟨(and_maskT _).trans ?_, ?_⟩ <;> simp [encodeWord, opcodeRow, opcodeTable, opcodeRowsLow, opcodeRowsMid, opcodeRowsHigh]

theorem rnd (x : Reg) (nn : Byte) : Statement (.rnd x nn) := by
  refine ⟨(and_maskT _).trans ?_, ?_⟩ <;> simp [encodeWord, opcodeRow, opcodeTable, opcodeRowsLow, opcodeRowsMid, opcodeRowsHigh]

theorem drw (x y : Reg) (n : Nibble) : Statement (.drw x y n) := by
  refine ⟨(and_maskT _).trans ?_, ?_⟩ <;> simp [encodeWord, opcodeRow, opcodeTable, opcodeRowsLow, opcodeRowsMid, opcodeRowsHigh]

theorem skp (x : Reg) : Statement (.skp x) := by
  refine ⟨(and_maskTNN _).trans ?_, ?_⟩ <;> simp [encodeWord, opcodeRow, opcodeTable, opcodeRowsLow, opcodeRowsMid, opcodeRowsHigh]

theorem sknp (x : Reg) : Statement (.sknp x) := by
  refine ⟨(and_maskTNN _).trans ?_, ?_⟩ <;> simp [encodeWord, opcodeRow, opcodeTable, opcodeRowsLow, opcodeRowsMid, opcodeRowsHigh]

theorem ldFromDT (x : Reg) : Statement (.ldFromDT x) := by
  refine ⟨(and_maskTNN _).trans ?_, ?_⟩ <;> simp [encodeWord, opcodeRow, opcodeTable, opcodeRowsLow, opcodeRowsMid, opcodeRowsHigh]

theorem ldKey (x : Reg) : Statement (.ldKey x) := by
  refine ⟨(and_maskTNN _).trans ?_, ?_⟩ <;> simp [encodeWord, opcodeRow, opcodeTable, opcodeRowsLow, opcodeRowsMid, opcodeRowsHigh]

theorem ldDT (x : Reg) : Statement (.ldDT x) := by
  refine ⟨(and_maskTNN _).trans ?_, ?_⟩ <;> simp [encodeWord, opcodeRow, opcodeTable, opcodeRowsLow, opcodeRowsMid, opcodeRowsHigh]

theorem ldST (x : Reg) : Statement (.ldST x) := by
  refine ⟨(and_maskTNN _).trans ?_, ?_⟩ <;> simp [encodeWord, opcodeRow, opcodeTable, opcodeRowsLow, opcodeRowsMid, opcodeRowsHigh]

theorem addI (x : Reg) : Statement (.addI x) := by
  refine ⟨(and_maskTNN _).trans ?_, ?_⟩ <;> simp [encodeWord, opcodeRow, opcodeTable, opcodeRowsLow, opcodeRowsMid, opcodeRowsHigh]

theorem ldFont (x : Reg) : Statement (.ldFont x) := by
  refine ⟨(and_maskTNN _).trans ?_, ?_⟩ <;> simp [encodeWord, opcodeRow, opcodeTable, opcodeRowsLow, opcodeRowsMid, opcodeRowsHigh]

theorem bcd (x : Reg) : Statement (.bcd x) := by
  refine ⟨(and_maskTNN _).trans ?_, ?_⟩ <;> simp [encodeWord, opcodeRow, opcodeTable, opcodeRowsLow, opcodeRowsMid, opcodeRowsHigh]

theorem store (x : Reg) : Statement (.store x) := by
  refine ⟨(and_maskTNN _).trans ?_, ?_⟩ <;> simp [encodeWord, opcodeRow, opcodeTable, opcodeRowsLow, opcodeRowsMid, opcodeRowsHigh]

theorem load (x : Reg) : Statement (.load x) := by
  refine ⟨(and_maskTNN _).trans ?_, ?_⟩ <;> simp [encodeWord, opcodeRow, opcodeTable, opcodeRowsLow, opcodeRowsMid, opcodeRowsHigh]

end Sys2Proof.Laws.MatchesItsRow
end

