-- ==== Sys2Proof/Laws/Step.lean ====
section
/-! SUPPORT. What an instruction and a Step can do, said once, for the proofs that follow. -/

namespace Sys2Proof.Machine

/-- The fetched bytes decode as the fetched word does. -/
theorem decode_fetchBytes (s : State) : decode (fetchBytes s) = (decodeWord (fetchWord s)).map fun i => (i, []) := rfl

/-- Every instruction answers a next state. -/
theorem exec_answers_next (i : Instr) (s : State) : ∃ t, exec i s = .next t := by
  generalize h : exec i s = o
  cases i <;> simp only [exec, execCls, execRet, execJp, execCall, execSeImm, execSneImm, execSeReg, execLdImm, execAddImm,
    execLdReg, execOrReg, execAndReg, execXorReg, execAddReg, execSubReg, execShr, execSubnReg, execShl, execSneReg,
    execLdI, execJpV0, execRnd, execDrw, execSkp, execSknp, execLdFromDT, execLdKey, execLdDT, execLdST, execAddI,
    execLdFont, execBcd, execStore, execLoad, addWith, subWith, subnWith, addIndexWith, withFlag, Config.flagOrder] at h
  all_goals (repeat' split at h)
  all_goals exact ⟨_, h.symm⟩

/-- An instruction raises a fault, or waits for a key, or leaves the keys, the control bits and the bookkeeping alone. -/
theorem exec_cases (i : Instr) (s t : State) (h : exec i s = .next t) :
    (∃ f, t = s.raise f) ∨ t = s.noProgress .keyWait ∨
    (t.KEY = s.KEY ∧ t.paused = s.paused ∧ t.running = s.running ∧ t.agenda = s.agenda ∧ t.faultSet = s.faultSet ∧
      t.outcome = s.outcome ∧ t.outputs = s.outputs) := by
  cases i <;> simp only [exec, execCls, execRet, execJp, execCall, execSeImm, execSneImm, execSeReg, execLdImm, execAddImm,
    execLdReg, execOrReg, execAndReg, execXorReg, execAddReg, execSubReg, execShr, execSubnReg, execShl, execSneReg,
    execLdI, execJpV0, execRnd, execDrw, execSkp, execSknp, execLdFromDT, execLdKey, execLdDT, execLdST, execAddI,
    execLdFont, execBcd, execStore, execLoad, addWith, subWith, subnWith, addIndexWith, withFlag, Config.flagOrder] at h
  all_goals (repeat' split at h)
  all_goals first
    | (cases h; exact Or.inl ⟨_, rfl⟩)
    | (cases h; exact Or.inr (Or.inl rfl))
    | (cases h; (try rw [State.setRegsFrom_frame]); right; right; simp)

/-- Only 00E0 and DXYN change the framebuffer. -/
theorem exec_FB {i : Instr} {s t : State} (h : exec i s = .next t) (hf : t.FB ≠ s.FB) :
    i = .cls ∨ ∃ x y n, i = .drw x y n := by
  cases i <;> simp only [exec, execCls, execRet, execJp, execCall, execSeImm, execSneImm, execSeReg, execLdImm, execAddImm,
    execLdReg, execOrReg, execAndReg, execXorReg, execAddReg, execSubReg, execShr, execSubnReg, execShl, execSneReg,
    execLdI, execJpV0, execRnd, execSkp, execSknp, execLdFromDT, execLdKey, execLdDT, execLdST, execAddI,
    execLdFont, execBcd, execStore, execLoad, addWith, subWith, subnWith, addIndexWith, withFlag, Config.flagOrder] at h
  case drw x y n => exact Or.inr ⟨x, y, n, rfl⟩
  case cls => exact Or.inl rfl
  all_goals (repeat' split at h)
  all_goals first
    | (cases h; done)
    | (cases h; exfalso; apply hf; (try rw [State.setRegsFrom_frame]); simp)

/-- An instruction stores nothing, or one run of bytes inside memory, with its LowWrites recorded. -/
theorem exec_mem (i : Instr) (s t : State) (h : exec i s = .next t) :
    (t.MEM = s.MEM ∧ t.lowWrites = s.lowWrites) ∨
    ∃ b l, b + l.length ≤ Config.memSize ∧ t.MEM = s.MEM.writeList b l ∧
      t.lowWrites = s.lowWrites ++ lowWritesOf s.pc b l.length := by
  cases i <;> simp only [exec, execCls, execRet, execJp, execCall, execSeImm, execSneImm, execSeReg, execLdImm, execAddImm,
    execLdReg, execOrReg, execAndReg, execXorReg, execAddReg, execSubReg, execShr, execSubnReg, execShl, execSneReg,
    execLdI, execJpV0, execRnd, execDrw, execSkp, execSknp, execLdFromDT, execLdKey, execLdDT, execLdST, execAddI,
    execLdFont, execBcd, execStore, execLoad, addWith, subWith, subnWith, addIndexWith, withFlag, Config.flagOrder] at h
  all_goals (repeat' split at h)
  all_goals first
    | (cases h; done)
    | (cases h; left; (try rw [State.setRegsFrom_frame]); simp; done)
    | skip
  all_goals
    rename_i hr
    rw [rangeFault_eq_none] at hr
    cases h; right
    refine ⟨s.indexAddr, _, ?_, rfl, rfl⟩
    simp only [decimalDigits, regCount, State.length_regList, List.length_cons, List.length_nil] at *
    omega

/-- A fault taken does not depend on what was put out before. -/
@[simp] theorem State.raise_beginExec (s : State) (f : Fault) : s.beginExec.raise f = s.raise f := rfl

/-- An instruction that raises a fault changes nothing of the core, alone or run by a Step. -/
theorem raisesAt_of_exec {i : Instr} {f : Fault} {s : State} (h : exec i s = .next (s.raise f))
    (hb : exec i s.beginExec = .next (s.raise f)) : RaisesAt i f s :=
  ⟨s.raise f, h, by simp [runInstr, hb, State.endExec], by simp [SameCore], rfl, rfl⟩

/-- The four ways a Step ends: paused, the fetch's fault, an unknown word, or the decoded instruction. -/
theorem cpuStep_cases {s t : State} (h : cpuStep s = .next t) :
    (s.paused = true ∧ t = s.noProgress .paused) ∨
    (s.paused = false ∧ ∃ f, fetchFault s = some f ∧ t = s.report none f) ∨
    (s.paused = false ∧ ∃ e, fetchFault s = none ∧ decodeWord (fetchWord s) = .error e ∧ t = s.raise .unknownOpcode) ∨
    (s.paused = false ∧ ∃ i u, fetchFault s = none ∧ decodeWord (fetchWord s) = .ok i ∧
      exec i s.beginExec = .next u ∧ t = u.endExec s.pc (fetchWord s)) := by
  unfold cpuStep at h
  split at h
  · next hp => cases h; exact .inl ⟨hp, rfl⟩
  · next hp =>
    have hp : s.paused = false := by simpa using hp
    split at h
    · next f hf => cases h; exact .inr (.inl ⟨hp, f, hf, rfl⟩)
    · next hf =>
      rw [decode_fetchBytes] at h
      cases hd : decodeWord (fetchWord s) with
      | error e => rw [hd] at h; cases h; exact .inr (.inr (.inl ⟨hp, e, hf, rfl, rfl⟩))
      | ok i =>
        rw [hd] at h
        obtain ⟨u, hu⟩ := exec_answers_next i s.beginExec
        simp only [Except.map, runInstr, hu] at h
        cases h
        exact .inr (.inr (.inr ⟨hp, i, u, hf, rfl, hu, rfl⟩))

/-- A property that every step keeps holds at every state a run reaches. -/
theorem reaches_keeps {P : State → Prop} (hstep : ∀ s t, P s → step s = .next t → P t) :
    ∀ {n : Nat} {s t : State}, P s → Reaches n s t → P t
  | 0, _, _, hs, h => h ▸ hs
  | _ + 1, _, _, hs, ⟨u, hu, h⟩ => reaches_keeps hstep (hstep _ u hs hu) h

/-- Reporting a fault records it and forgets none. -/
theorem State.mem_report_faultSet (s : State) (w : Option Word) (f : Fault) (d : Diagnostic) :
    d ∈ (s.report w f).faultSet ↔ d = s.diagnosticOf w f ∨ d ∈ s.faultSet := by
  simp only [State.report]
  split <;> rename_i h
  · exact ⟨.inr, fun hd => hd.elim (fun he => he ▸ h) id⟩
  · simp [or_comm]

/-- The end of an execution changes what is put out, and nothing else. -/
theorem State.endExec_eq (t : State) (pc w : Word) : t.endExec pc w = { t with outputs := (t.endExec pc w).outputs } := by
  unfold State.endExec
  split <;> rfl

/-- The fault record after a Step: it grows by the report of a fault, and is kept by any other Step. -/
theorem cpuStep_faultSet {s t : State} (h : cpuStep s = .next t) :
    (∃ w f, t = s.report w f) ∨ (t.faultSet = s.faultSet ∧ ∀ f, t.outcome ≠ some (.faulted f)) := by
  obtain ⟨_, rfl⟩ | ⟨_, f, _, rfl⟩ | ⟨_, e, _, _, rfl⟩ | ⟨_, i, u, _, _, hu, rfl⟩ := cpuStep_cases h
  · exact .inr ⟨rfl, by simp⟩
  · exact .inl ⟨_, _, rfl⟩
  · exact .inl ⟨_, _, rfl⟩
  · rw [State.endExec_eq]
    obtain ⟨f, rfl⟩ | rfl | ⟨_, _, _, _, hf, ho, _⟩ := exec_cases _ _ _ hu
    · exact .inl ⟨some (fetchWord s), f, by simp [State.endExec]; rfl⟩
    · exact .inr ⟨rfl, by simp⟩
    · exact .inr ⟨hf, by simp [ho, State.beginExec]⟩

/-- A transition is a Step while the clocks run, or leaves the fault record as it was and ends in no fault. -/
theorem transition_faultSet {m : Move} {s t : State} (h : transition m s = .next t) :
    (m = .instructionClock ∧ s.running = true ∧ cpuStep s = .next t) ∨
    (t.faultSet = s.faultSet ∧ t.outcome = none) := by
  cases m <;> simp only [transition] at h <;> (repeat' split at h) <;>
    first
      | (cases h; done)
      | (rename_i hr; exact .inl ⟨rfl, hr, h⟩)
      | (cases h; right; first | exact ⟨rfl, rfl⟩ | (unfold keyInput; split <;> exact ⟨rfl, rfl⟩) |
          (unfold loadImage; split <;> exact ⟨rfl, rfl⟩) | (unfold initializeCore loadImage; split <;> exact ⟨rfl, rfl⟩))

/-- A step is the first scheduled move, or a fire of the instruction clock. -/
theorem step_cases {s t : State} (h : step s = .next t) :
    (s.agenda = [] ∧ transition .instructionClock s = .next t) ∨
    ∃ m rest, s.agenda = m :: rest ∧ transition m { s with agenda := rest } = .next t := by
  unfold step nextTransition at h
  split at h
  · exact .inl ⟨‹_›, h⟩
  · exact .inr ⟨_, _, ‹_›, h⟩

end Sys2Proof.Machine
end

