-- ==== Sys2Proof/Tests/Slice0.lean ====
section
/-! SUPPORT. Tests of the model, with results taken from the spec's tables and vectors, and the witnesses of the statements. -/

namespace Sys2Proof.Tests

open Sys2Proof Sys2Proof.Machine

/-! The checks of WellFormed refuse ill-formed terms. -/

/-- Whether an image of n equal bytes fits. -/
theorem imageFits_replicate (n : Nat) : imageFits (List.replicate n 0#8) = decide (n ≤ 3584) := by
  simp [imageFits]

/-- An image of 3585 bytes does not fit, one of 3584 does (R70). -/
theorem test_wellFormed_load :
    (Move.load (List.replicate 3585 0#8)).wellFormed = false ∧ (Move.load (List.replicate 3584 0#8)).wellFormed = true := by
  exact ⟨(imageFits_replicate 3585).trans (by decide), (imageFits_replicate 3584).trans (by decide)⟩

/-- The same for Initialize (R70, R303). -/
theorem test_wellFormed_initCore :
    (Move.initCore (List.replicate 3585 0#8)).wellFormed = false ∧
    (Move.initCore (List.replicate 3584 0#8)).wellFormed = true := by
  exact ⟨(imageFits_replicate 3585).trans (by decide), (imageFits_replicate 3584).trans (by decide)⟩

/-- Key 16 is no key, key 15 is (R286). -/
theorem test_wellFormed_press : (Move.press 16).wellFormed = false ∧ (Move.press 15).wellFormed = true := by decide

/-- The same for Release (R286). -/
theorem test_wellFormed_release : (Move.release 16).wellFormed = false ∧ (Move.release 15).wellFormed = true := by decide

/-! Decoding: one word per instruction, written out from the opcode map R86. -/

theorem test_decode_cls : decodeTableWord 16 0x00E0 = some (.cls) := by decide
theorem test_decode_ret : decodeTableWord 16 0x00EE = some (.ret) := by decide
theorem test_decode_jp : decodeTableWord 16 0x1204 = some (.jp 0x204#12) := by decide
theorem test_decode_call : decodeTableWord 16 0x2210 = some (.call 0x210#12) := by decide
theorem test_decode_seImm : decodeTableWord 16 0x332A = some (.seImm 0x3#4 0x2A#8) := by decide
theorem test_decode_sneImm : decodeTableWord 16 0x4A07 = some (.sneImm 0xA#4 0x07#8) := by decide
theorem test_decode_seReg : decodeTableWord 16 0x5120 = some (.seReg 0x1#4 0x2#4) := by decide
theorem test_decode_ldImm : decodeTableWord 16 0x6A42 = some (.ldImm 0xA#4 0x42#8) := by decide
theorem test_decode_addImm : decodeTableWord 16 0x7F05 = some (.addImm 0xF#4 0x05#8) := by decide
theorem test_decode_ldReg : decodeTableWord 16 0x8AB0 = some (.ldReg 0xA#4 0xB#4) := by decide
theorem test_decode_orReg : decodeTableWord 16 0x8AB1 = some (.orReg 0xA#4 0xB#4) := by decide
theorem test_decode_andReg : decodeTableWord 16 0x8AB2 = some (.andReg 0xA#4 0xB#4) := by decide
theorem test_decode_xorReg : decodeTableWord 16 0x8AB3 = some (.xorReg 0xA#4 0xB#4) := by decide
theorem test_decode_addReg : decodeTableWord 16 0x8AB4 = some (.addReg 0xA#4 0xB#4) := by decide
theorem test_decode_subReg : decodeTableWord 16 0x8AB5 = some (.subReg 0xA#4 0xB#4) := by decide
theorem test_decode_shr : decodeTableWord 16 0x8AB6 = some (.shr 0xA#4 0xB#4) := by decide
theorem test_decode_subnReg : decodeTableWord 16 0x8AB7 = some (.subnReg 0xA#4 0xB#4) := by decide
theorem test_decode_shl : decodeTableWord 16 0x8ABE = some (.shl 0xA#4 0xB#4) := by decide
theorem test_decode_sneReg : decodeTableWord 16 0x9120 = some (.sneReg 0x1#4 0x2#4) := by decide
theorem test_decode_ldI : decodeTableWord 16 0xA228 = some (.ldI 0x228#12) := by decide
theorem test_decode_jpV0 : decodeTableWord 16 0xB123 = some (.jpV0 0x123#12) := by decide
theorem test_decode_rnd : decodeTableWord 16 0xC30F = some (.rnd 0x3#4 0x0F#8) := by decide
theorem test_decode_drw : decodeTableWord 16 0xD125 = some (.drw 0x1#4 0x2#4 0x5#4) := by decide
theorem test_decode_skp : decodeTableWord 16 0xE59E = some (.skp 0x5#4) := by decide
theorem test_decode_sknp : decodeTableWord 16 0xE5A1 = some (.sknp 0x5#4) := by decide
theorem test_decode_ldFromDT : decodeTableWord 16 0xF107 = some (.ldFromDT 0x1#4) := by decide
theorem test_decode_ldKey : decodeTableWord 16 0xF30A = some (.ldKey 0x3#4) := by decide
theorem test_decode_ldDT : decodeTableWord 16 0xF015 = some (.ldDT 0x0#4) := by decide
theorem test_decode_ldST : decodeTableWord 16 0xF218 = some (.ldST 0x2#4) := by decide
theorem test_decode_addI : decodeTableWord 16 0xF21E = some (.addI 0x2#4) := by decide
theorem test_decode_ldFont : decodeTableWord 16 0xF729 = some (.ldFont 0x7#4) := by decide
theorem test_decode_bcd : decodeTableWord 16 0xF033 = some (.bcd 0x0#4) := by decide
theorem test_decode_store : decodeTableWord 16 0xF255 = some (.store 0x2#4) := by decide
theorem test_decode_load : decodeTableWord 16 0xF365 = some (.load 0x3#4) := by decide

/-- Words of no instruction (L2-E1 to L2-E10). -/
theorem test_decode_unknown :
    [0x0000, 0x0123, 0x00E1, 0x5011, 0x8008, 0x800F, 0x901F, 0xE09F, 0xF000, 0xF0FF].all
      (fun w => decodeTableWord 16 w == none) = true := by decide

/-- One byte is no instruction (R80). -/
theorem test_decode_truncated : decode [0x12#8] = .error .truncated := by decide

/-! One step on a small state: the vectors L2 of 95_test_vectors.md, named in each test. -/

/-- The answer is a next state with a property. -/
def ok (r : Result) (p : State → Bool) : Bool :=
  match r with
  | .next t => p t
  | _ => false

/-- One step of a word placed at pc of a state. -/
def run (s : State) (w : Nat) : Result := step (s.withFetchWord 16 w)

/-- The reset state with the pc moved and the clocks started. -/
def atPc (pc : Word) : State := (State.reset.setPc pc).setRunning true

/-- The reset state with two registers set. -/
def regs2 (x : Reg) (v : Byte) (y : Reg) (w : Byte) : State := (State.reset.setReg x v).setReg y w

/-- A step completed and left pc at an address. -/
def doneAt (t : State) (pc : Word) : Bool := t.outcome == some .completed && t.pc == pc

/-- A step ended in a fault. -/
def faulted (t : State) (f : Fault) : Bool := t.outcome == some (.faulted f)

/-- L2-H14, R289: after reset the clocks are stopped, and a step does nothing. -/
theorem test_reset_stopped : step State.reset = .next State.reset := rfl

/-- L2-E1, L2-H16: the empty memory at 0x200 is an unknown word, reported with code 3, pc and word. -/
theorem test_unknown_step : ok (step (State.reset.setRunning true)) (fun t => faulted t .unknownOpcode && t.pc == 0x200#16 &&
      t.outputs == [.diagnostic ⟨3, 0x200#16, some 0x0000#16, none⟩]) = true := by decide

/-- L2-E11. -/
theorem test_fetch_odd : ok (run (atPc 0x201#16) 0x6042) (fun t => doneAt t 0x203#16 && t.reg 0x0#4 == 0x42#8) = true := by decide

/-- L2-E12. -/
theorem test_fetch_last : ok (run (atPc 0xFFE#16) 0x6001) (fun t => doneAt t 0x1000#16 && t.reg 0x0#4 == 0x01#8) = true := by decide

/-- L2-E13, L2-E14: MemoryBounds of 0x1000, without a word. -/
theorem test_fetch_fault : ok (step (atPc 0xFFF#16)) (fun t => t.pc == 0xFFF#16 &&
      t.outputs == [.diagnostic ⟨6, 0xFFF#16, none, some 0x1000⟩]) &&
    ok (step (atPc 0x1000#16)) (fun t => faulted t (.memoryBounds 0x1000)) = true := by decide

/-- L2-C1. -/
theorem test_ret : ok (run ((atPc 0x212#16).push 0x204#16) 0x00EE) (fun t => doneAt t 0x206#16 && t.SP == 0) = true := by decide

/-- L2-C2. -/
theorem test_ret_underflow : ok (run (atPc 0x212#16) 0x00EE) (fun t => faulted t .stackUnderflow && t.pc == 0x212#16) = true := by decide

/-- L2-C7. -/
theorem test_jp : ok (run State.reset 0x1FFF) (fun t => doneAt t 0xFFF#16) = true := by decide

/-- L2-C9. -/
theorem test_call : ok (run { (atPc 0x230#16) with SP := 15 } 0x2400)
    (fun t => doneAt t 0x400#16 && t.SP == 16 && t.stackEntry 15 == 0x230#16) = true := by decide

/-- L2-C10. -/
theorem test_call_overflow : ok (run { (atPc 0x230#16) with SP := 16 } 0x2400) (fun t => faulted t .stackOverflow && t.pc == 0x230#16) = true := by decide

/-- L2-C12, L2-C13. -/
theorem test_jpV0 : ok (run (State.reset.setReg 0x1#4 0x05#8) 0xB123) (fun t => doneAt t 0x123#16) &&
    ok (run (State.reset.setReg 0x0#4 0xFF#8) 0xBFFF) (fun t => doneAt t 0x10FE#16) = true := by decide

/-- L2-S1, L2-S2. -/
theorem test_seImm : ok (run ((atPc 0x300#16).setReg 0x3#4 0x2A#8) 0x332A) (fun t => doneAt t 0x304#16) &&
    ok (run ((atPc 0x300#16).setReg 0x3#4 0x2A#8) 0x332B) (fun t => doneAt t 0x302#16) = true := by decide

/-- L2-S4, L2-S5. -/
theorem test_sneImm : ok (run ((atPc 0x300#16).setReg 0x3#4 0x2A#8) 0x432A) (fun t => doneAt t 0x302#16) &&
    ok (run ((atPc 0x300#16).setReg 0x3#4 0x2A#8) 0x4300) (fun t => doneAt t 0x304#16) = true := by decide

/-- L2-S7, L2-S8. -/
theorem test_seReg : ok (run (regs2 0x0#4 0x05#8 0x1#4 0x06#8) 0x5010) (fun t => doneAt t 0x202#16) &&
    ok (run (State.reset.setReg 0x4#4 0x99#8) 0x5440) (fun t => doneAt t 0x204#16) = true := by decide

/-- L2-S9, L2-S10. -/
theorem test_sneReg : ok (run ((regs2 0x0#4 0x04#8 0x1#4 0x05#8).setPc 0x206#16) 0x9010) (fun t => doneAt t 0x20A#16) &&
    ok (run (State.reset.setReg 0x4#4 0x99#8) 0x9440) (fun t => doneAt t 0x202#16) = true := by decide

/-- L2-A2. -/
theorem test_ldImm : ok (run (State.reset.setReg 0xF#4 0x01#8) 0x6F99) (fun t => doneAt t 0x202#16 && t.reg 0xF#4 == 0x99#8) = true := by decide

/-- L2-A3. -/
theorem test_addImm : ok (run (regs2 0x0#4 0xFF#8 0xF#4 0x07#8) 0x7001) (fun t => doneAt t 0x202#16 && t.reg 0x0#4 == 0x00#8 && t.reg 0xF#4 == 0x07#8) = true := by decide

/-- L2-A6. -/
theorem test_ldReg : ok (run (State.reset.setReg 0x1#4 0x7E#8) 0x8010) (fun t => doneAt t 0x202#16 && t.reg 0x0#4 == 0x7E#8) = true := by decide

/-- L2-A7. -/
theorem test_orReg : ok (run ((regs2 0x0#4 0xC0#8 0x1#4 0x0C#8).setReg VF 0x07#8) 0x8011) (fun t => doneAt t 0x202#16 && t.reg 0x0#4 == 0xCC#8 && t.reg 0xF#4 == 0x07#8) = true := by decide

/-- L2-A8. -/
theorem test_andReg : ok (run ((regs2 0x0#4 0xCC#8 0x1#4 0x0F#8).setReg VF 0x07#8) 0x8012) (fun t => doneAt t 0x202#16 && t.reg 0x0#4 == 0x0C#8 && t.reg 0xF#4 == 0x07#8) = true := by decide

/-- L2-A9. -/
theorem test_xorReg : ok (run ((regs2 0x0#4 0xCC#8 0x1#4 0xFF#8).setReg VF 0x07#8) 0x8013) (fun t => doneAt t 0x202#16 && t.reg 0x0#4 == 0x33#8 && t.reg 0xF#4 == 0x07#8) = true := by decide

/-- L2-A13. -/
theorem test_addReg : ok (run (regs2 0x0#4 0xFF#8 0x1#4 0x01#8) 0x8014) (fun t => doneAt t 0x202#16 && t.reg 0x0#4 == 0x00#8 && t.reg 0xF#4 == 0x01#8) = true := by decide

/-- L2-A15. -/
theorem test_addReg_VF : ok (run (regs2 0xF#4 0xF0#8 0x1#4 0x20#8) 0x8F14) (fun t => doneAt t 0x202#16 && t.reg 0xF#4 == 0x01#8) = true := by decide

/-- L2-A16, L2-A18. -/
theorem test_addWith_flagFirst : ((addWith .flagFirst VF 0x1#4 (regs2 0xF#4 0xF0#8 0x1#4 0x20#8)).reg VF == 0x21#8 &&
    (addWith .flagFirst 0x0#4 VF (regs2 0x0#4 0xF0#8 0xF#4 0x20#8)).reg 0x0#4 == 0xF1#8) = true := by decide

/-- L2-A21. -/
theorem test_subReg : ok (run (regs2 0x0#4 0x00#8 0x1#4 0x01#8) 0x8015) (fun t => doneAt t 0x202#16 && t.reg 0x0#4 == 0xFF#8 && t.reg 0xF#4 == 0x00#8) = true := by decide

/-- L2-A20. -/
theorem test_subReg_equal : ok (run (regs2 0x0#4 0x05#8 0x1#4 0x05#8) 0x8015) (fun t => doneAt t 0x202#16 && t.reg 0x0#4 == 0x00#8 && t.reg 0xF#4 == 0x01#8) = true := by decide

/-- L2-A25. -/
theorem test_shr : ok (run (regs2 0x0#4 0x04#8 0x1#4 0xFF#8) 0x8016) (fun t => doneAt t 0x202#16 && t.reg 0x0#4 == 0x02#8 && t.reg 0xF#4 == 0x00#8) = true := by decide

/-- L2-A26. -/
theorem test_shr_VF : ok (run (State.reset.setReg 0xF#4 0x03#8) 0x8F06) (fun t => doneAt t 0x202#16 && t.reg 0xF#4 == 0x01#8) = true := by decide

/-- L2-A28. -/
theorem test_subnReg : ok (run (regs2 0x0#4 0x03#8 0x1#4 0x05#8) 0x8017) (fun t => doneAt t 0x202#16 && t.reg 0x0#4 == 0x02#8 && t.reg 0xF#4 == 0x01#8) = true := by decide

/-- L2-A29. -/
theorem test_subnReg_borrow : ok (run (regs2 0x0#4 0x05#8 0x1#4 0x03#8) 0x8017) (fun t => doneAt t 0x202#16 && t.reg 0x0#4 == 0xFE#8 && t.reg 0xF#4 == 0x00#8) = true := by decide

/-- L2-A31. -/
theorem test_shl : ok (run (State.reset.setReg 0x0#4 0x81#8) 0x800E) (fun t => doneAt t 0x202#16 && t.reg 0x0#4 == 0x02#8 && t.reg 0xF#4 == 0x01#8) = true := by decide

/-- L2-A33. -/
theorem test_shl_VF : ok (run (State.reset.setReg 0xF#4 0x40#8) 0x8F0E) (fun t => doneAt t 0x202#16 && t.reg 0xF#4 == 0x00#8) = true := by decide

/-- L2-A36: with NN = 0 the result is 0, whatever byte is drawn. -/
theorem test_rnd : ok (run (State.reset.setReg 0x3#4 0x55#8) 0xC300) (fun t => doneAt t 0x202#16 && t.draws == 1) = true ∧
    ∀ n, Config.randomByte n &&& 0x00#8 = 0x00#8 := ⟨by decide, fun n => by simp⟩

/-- L2-M2. -/
theorem test_ldI : ok (run (State.reset.setI 0xF123#16) 0xAFFF) (fun t => doneAt t 0x202#16 && t.I == 0xFFF#16) = true := by decide

/-- L2-M5. -/
theorem test_addI : ok (run ((State.reset.setI 0xFFF#16).setReg 0x2#4 0x01#8) 0xF21E) (fun t => doneAt t 0x202#16 && t.I == 0x1000#16 && t.reg 0xF#4 == 0x01#8) = true := by decide

/-- L2-M6. -/
theorem test_addI_wrap : ok (run ((State.reset.setI 0xFFFF#16).setReg 0x2#4 0x01#8) 0xF21E) (fun t => doneAt t 0x202#16 && t.I == 0x0000#16 && t.reg 0xF#4 == 0x01#8) = true := by decide

/-- L2-M13. -/
theorem test_ldFont : ok (run (State.reset.setReg 0x1#4 0xFF#8) 0xF129) (fun t => doneAt t 0x202#16 && t.I == 0x4FB#16) = true := by decide

/-- L2-M19. -/
theorem test_bcd : ok (run ((State.reset.setI 0x000#16).setReg 0x0#4 0x7B#8) 0xF033) (fun t => doneAt t 0x202#16 && t.MEM.readList 0 3 == [1#8, 2#8, 3#8] && 
      t.lowWrites == [⟨0x200#16, 0⟩, ⟨0x200#16, 1⟩, ⟨0x200#16, 2⟩]) = true := by decide

/-- L2-M18. -/
theorem test_bcd_bounds : ok (run ((State.reset.setI 0xFFE#16).setReg 0x0#4 0x07#8) 0xF033)
    (fun t => faulted t (.memoryBounds 0x1000) && t.pc == 0x200#16 && t.MEM.readList 0xFFE 2 == [0#8, 0#8]) = true := by decide

/-- L2-M20. -/
theorem test_store : ok (run (((regs2 0x0#4 0x01#8 0x1#4 0x02#8).setReg 0x2#4 0x03#8).setI 0x400#16) 0xF255) (fun t => doneAt t 0x202#16 && t.I == 0x403#16 && 
      t.MEM.readList 0x400 4 == [1#8, 2#8, 3#8, 0#8]) = true := by decide

/-- L2-M23. -/
theorem test_store_bounds : ok (run ((State.reset.setI 0xFFE#16).setReg 0x0#4 0x01#8) 0xF255)
    (fun t => faulted t (.memoryBounds 0x1000) && t.I == 0xFFE#16 && t.MEM.readList 0xFFE 2 == [0#8, 0#8]) = true := by decide

/-- L2-M24. -/
theorem test_load : ok (run (((State.reset.setReg 0x3#4 0x77#8).setI 0x300#16).storeBytes 0x300 [0x02#8, 0x05#8, 0x04#8]) 0xF265) (fun t => doneAt t 0x202#16 && t.I == 0x303#16 && 
      t.regList 4 == [0x02#8, 0x05#8, 0x04#8, 0x77#8]) = true := by decide

/-- L2-M27. -/
theorem test_load_bounds : ok (run (State.reset.setI 0x1000#16) 0xF065) (fun t => faulted t (.memoryBounds 0x1000) && t.I == 0x1000#16) = true := by decide

/-- L2-D1. -/
theorem test_cls : ok (run ((State.reset.toggleCells [0, 2047]).setReg VF 0x01#8) 0x00E0) (fun t => doneAt t 0x202#16 && t.FB == 0#2048 && t.reg 0xF#4 == 0x01#8) = true := by decide +kernel

/-- L2-D7: past cell 2047 the sprite goes on in row 0. -/
theorem test_drw : ok (run (((regs2 0x0#4 0x3C#8 0x1#4 0x1F#8).setI 0x300#16).storeBytes 0x300 [0xFF#8]) 0xD011) (fun t => doneAt t 0x202#16 && 
      t.FB == (State.reset.toggleCells [0, 1, 2, 3, 2044, 2045, 2046, 2047]).FB && t.reg 0xF#4 == 0x00#8) = true := by decide +kernel

/-- L2-D3, L1-4. -/
theorem test_drw_collision : ok (run (((State.reset.toggleCells [0, 1, 2, 3, 4, 5, 6, 7]).setI 0x300#16).storeBytes 0x300 [0xFF#8]) 0xD011) (fun t => doneAt t 0x202#16 && t.FB == 0#2048 && t.reg 0xF#4 == 0x01#8) = true := by decide +kernel

/-- L2-K1, L2-K5. -/
theorem test_skp : ok (run (((atPc 0x220#16).setReg 0x5#4 0x0A#8).setKey 10 true) 0xE59E) (fun t => doneAt t 0x224#16) &&
    ok (run (State.reset.setReg 0x5#4 0x10#8) 0xE59E) (fun t => faulted t (.keyIndex 16) && t.pc == 0x200#16) = true := by decide

/-- L2-K3, L2-K6. -/
theorem test_sknp : ok (run ((atPc 0x220#16).setReg 0x5#4 0x0A#8) 0xE5A1) (fun t => doneAt t 0x224#16) &&
    ok (run ((State.reset.setReg 0x5#4 0xFF#8).setKey 15 true) 0xE5A1) (fun t => faulted t (.keyIndex 255)) = true := by decide

/-- L2-K7. -/
theorem test_ldKey_wait : ok (run State.reset 0xF30A) (fun t => t.outcome == some .keyWait && t.pc == 0x200#16 && t.outputs == []) = true := by decide

/-- L2-K8: the one pressed key is the one chosen, whichever free value is drawn. -/
theorem test_ldKey : ∃ t, exec (.ldKey 0x3#4) (State.reset.setKey 7 true) = .next t ∧ t.pc = 0x202#16 ∧
    t.reg 0x3#4 = 0x07#8 := by
  have h : (State.reset.setKey 7 true).pressedKeys = [7] := by decide
  have h0 : ∀ n, selectKey n [7] = 7 := fun n => by simp [selectKey, Nat.mod_one]
  have hne : ¬ (State.reset.setKey 7 true).pressedKeys = [] := by decide
  exact ⟨_, by rw [exec, execLdKey, if_neg hne, h, h0], by decide, by decide⟩

/-- L2-K11. -/
theorem test_ldFromDT : ok (run (State.reset.setDT 32#8) 0xF107) (fun t => doneAt t 0x202#16 && t.reg 0x1#4 == 0x20#8) = true := by decide

/-- L2-K12. -/
theorem test_ldDT : ok (run (State.reset.setReg 0x0#4 0x05#8) 0xF015) (fun t => doneAt t 0x202#16 && t.DT == 5#8) = true := by decide

/-- L2-K14. -/
theorem test_ldST : ok (run (State.reset.setReg 0x2#4 0x0F#8) 0xF218) (fun t => doneAt t 0x202#16 && t.ST == 15#8 && t.toneActive) = true := by decide

/-- L2-T2, L2-T4. -/
theorem test_timerTick : (((timerTick (State.reset.setST 1#8)).ST == 0#8 && (timerTick (State.reset.setST 1#8)).outputs == [.toneTick]) &&
    (timerTick ((State.reset.setDT 255#8).setST 255#8)).DT == 254#8) = true := by decide

/-- L2-H1. -/
theorem test_paused : ok (step { (State.reset.withFetchWord 16 0x6001) with paused := true })
    (fun t => t.outcome == some .paused && t.reg 0x0#4 == 0#8 && t.outputs == []) = true := by decide

/-- L2-H6. -/
theorem test_press_range : ok (transition (.press 16) State.reset) (fun t => t.KEY == State.reset.KEY && t.outputs == [.rejected .keyInputRange]) = true := by decide

/-- L2-H7. -/
theorem test_load_image : ok (transition (.load [0x12#8, 0x00#8]) State.reset) (fun t => t.MEM.readList 0x200 2 == [0x12#8, 0x00#8]) = true := by decide

/-! Witnesses: for each statement that has hypotheses, a concrete state and operands that meet them, each clause at a
boundary value of its range. -/

/-- The state with V0 = 123 and I at an address. -/
def digits (i : Word) : State := (State.reset.setReg 0x0#4 123#8).setI i

/-- The image of n zero bytes has n bytes. -/
theorem length_zeros (n : Nat) : (List.replicate n 0#8).length = n := by simp

/-- A state that is not the reset state and meets the invariant. -/
theorem witness_inv : (State.reset.setReg 0x3#4 0x44#8).Inv where
  memory := by decide
  faultsOnce := by decide
  faultKept := by intro f h; cases h
  lowOnly := by intro e h; cases h
  completedFires := by simp [State.reset]

/-- EveryStepKeepsTheModelInvariant: a state with the invariant that steps. -/
theorem witness_EveryStepKeepsTheModelInvariant :
    ∃ s t : State, s.Inv ∧ step s = .next t := ⟨State.reset.setReg 0x3#4 0x44#8, _, witness_inv, rfl⟩

/-- EncodeOfDecodeIsTheWord: a word that decodes, with its ignored field at its largest value. -/
theorem witness_EncodeOfDecodeIsTheWord : decodeWord 0x8AF6#16 = .ok (.shr 0xA#4 0xF#4) := by decide

/-- WordsAreInstructionsExactlyByTheMap: a decoded word, and a row of the map that matches it. -/
theorem witness_WordsAreInstructionsExactlyByTheMap :
    decodeWord 0xFFFF#16 = .error (.unknownWord 0xFFFF#16) ∧ decodeWord 0xFF65#16 = .ok (.load 0xF#4) ∧
    (⟨0xF065#16, 0xF0FF#16⟩ : OpcodeRow) ∈ opcodeTable ∧
    (⟨0xF065#16, 0xF0FF#16⟩ : OpcodeRow).matchesWord 0xFF65#16 = true := by decide

/-- The state whose next word is 6A42 at a pc. -/
def ready (pc : Word) : State := (atPc pc).withFetchWord 16 0x6A42

/-- StepRunsTheDecodedInstruction: at 0x200, and at the last pc a word can be fetched from. -/
theorem witness_StepRunsTheDecodedInstruction :
    (ready 0x200#16).agenda = [] ∧ (ready 0x200#16).running = true ∧ (ready 0x200#16).paused = false ∧ (ready 0x200#16).pc.toNat + 1 < 0x1000 ∧
    decode (fetchBytes (ready 0x200#16)) = .ok (.ldImm 0xA#4 0x42#8, []) ∧
    (Instr.ldImm 0xA#4 0x42#8).wellFormed = true ∧
    (ready 0xFFE#16).agenda = [] ∧ (ready 0xFFE#16).running = true ∧ (ready 0xFFE#16).paused = false ∧ (ready 0xFFE#16).pc.toNat + 1 < 0x1000 ∧
    decode (fetchBytes (ready 0xFFE#16)) = .ok (.ldImm 0xA#4 0x42#8, []) := by decide

/-- FetchIsBigEndianAndChecked: pc 0xFFE fetches, 0xFFF and 0x1000 do not. -/
theorem witness_FetchIsBigEndianAndChecked :
    (atPc 0xFFE#16).paused = false ∧ (atPc 0xFFE#16).pc.toNat + 1 < 0x1000 ∧
    (atPc 0xFFF#16).paused = false ∧ 0x1000 ≤ (atPc 0xFFF#16).pc.toNat + 1 ∧
    (atPc 0x1000#16).paused = false ∧ 0x1000 ≤ (atPc 0x1000#16).pc.toNat + 1 := by decide

/-- UnknownWordIsReportedAndNotPassed, and the unknown word of FetchIsBigEndianAndChecked: the reset state. -/
theorem witness_UnknownWordIsReportedAndNotPassed :
    State.reset.paused = false ∧ State.reset.pc.toNat + 1 < 0x1000 ∧
    decodeWord (fetchWord State.reset) = .error (.unknownWord 0x0000#16) := by decide

/-- FaultedStepChangesNothingAndRepeats: an unknown word, a fetch fault, and a fault of an instruction. -/
theorem witness_FaultedStepChangesNothingAndRepeats :
    (∃ t, cpuStep State.reset = .next t ∧ t.outcome = some (.faulted .unknownOpcode)) ∧
    (∃ t, cpuStep (atPc 0xFFF#16) = .next t ∧ t.outcome = some (.faulted (.memoryBounds 0x1000))) ∧
    ∃ t, cpuStep (State.reset.withFetchWord 16 0x00EE) = .next t ∧ t.outcome = some (.faulted .stackUnderflow) :=
  ⟨⟨_, rfl, rfl⟩, ⟨_, rfl, rfl⟩, ⟨_, rfl, rfl⟩⟩

/-- NoOutcomeStopsTheCore: the one refusal is reached, and a Load with the clocks stopped goes on. -/
theorem witness_NoOutcomeStopsTheCore :
    step { State.reset with running := true, agenda := [.load [0x12#8]] } = .refused .loadWhileRunning ∧
    ∃ t, step { State.reset with agenda := [.load [0x12#8]] } = .next t := ⟨rfl, _, rfl⟩

/-- CycleCompletedFiresExactlyOnCompletion: a step that completes and one that does not. -/
theorem witness_CycleCompletedFiresExactlyOnCompletion :
    (∃ t, cpuStep (ready 0x200#16) = .next t ∧ t.outcome = some .completed) ∧
    ∃ t, cpuStep State.reset = .next t ∧ t.outcome ≠ some .completed :=
  ⟨⟨_, rfl, rfl⟩, _, rfl, by decide⟩

/-- PauseGatesStepOnly: a paused core whose clocks run. -/
theorem witness_PauseGatesStepOnly :
    ({ State.reset with paused := true, running := true } : State).paused = true ∧
    ({ State.reset with paused := true, running := true } : State).running = true := by decide

/-- TimerTickCountsBothTimersDown: ST at 1 and at 0. -/
theorem witness_TimerTickCountsBothTimersDown :
    (State.reset.setST 1#8).ST.toNat > 0 ∧ State.reset.ST.toNat = 0 := by decide

/-- ClocksFireOnlyWhileRunning: running, and stopped with either clock. -/
theorem witness_ClocksFireOnlyWhileRunning :
    (State.reset.setRunning true).running = true ∧ State.reset.running = false ∧
    (Move.instructionClock = Move.instructionClock ∨ Move.instructionClock = .timerClock) := by decide

/-- StoppedClocksKeepEveryPieceOfState: two scheduled fires of a stopped core, and three steps. -/
theorem witness_StoppedClocksKeepEveryPieceOfState :
    (digits 0x1FF#16).running = false ∧
    (∀ m ∈ [Move.instructionClock, .timerClock], m = Move.instructionClock ∨ m = .timerClock) ∧
    ∃ t, Reaches 3 { digits 0x1FF#16 with agenda := [.instructionClock, .timerClock] } t :=
  ⟨rfl, by decide, _, _, rfl, _, rfl, _, rfl, rfl⟩

/-- FaultedRunIsNeverFinal: a step that faults and one more, and a Reset of a state that has already recorded a fault. -/
theorem witness_FaultedRunIsNeverFinal :
    (∃ u, step (atPc 0x200#16) = .next u ∧ u.outcome = some (.faulted .unknownOpcode) ∧ ∃ t, Reaches 1 u t) ∧
    (∃ u, transition .reset (State.reset.report none .stackOverflow) = .next u ∧
      step { State.reset.report none .stackOverflow with agenda := [.reset] } = .next u ∧ u.faultSet ≠ []) :=
  ⟨⟨_, rfl, rfl, _, _, rfl, rfl⟩, _, rfl, rfl, by decide⟩

/-- KeyInputSetsExactlyOneKey: the last key and the first index past it, pressed and released. -/
theorem witness_KeyInputSetsExactlyOneKey :
    Move.press 15 = (if true then .press 15 else .release 15) ∧ 15 < 16 ∧
    Move.release 16 = (if false then .press 16 else .release 16) ∧ 16 ≤ 16 := by decide

/-- LoadCopiesTheImageOrIsRejected, InitializeStartAndStop: images of 3584 and of 3585 bytes, the clocks stopped or not. -/
theorem witness_LoadCopiesTheImageOrIsRejected :
    State.reset.running = false ∧ (State.reset.setRunning true).running = true ∧
    (List.replicate 3584 0#8).length ≤ 3584 ∧ 3584 < (List.replicate 3585 0#8).length := by
  rw [length_zeros, length_zeros]; decide

/-- RegisterAccessIsTheTable: an instruction that completes, a register it does not write, and one it does not read. -/
theorem witness_RegisterAccessIsTheTable :
    (∃ t, exec (.addReg 0x1#4 0x2#4) State.reset = .next t) ∧ 0x2#4 ∉ writesRegs (.addReg 0x1#4 0x2#4) ∧
    VF ∉ readsRegs (.addReg 0x1#4 0x2#4) := ⟨⟨_, rfl⟩, by decide, by decide⟩

/-- OnlyDrawClearAndResetChangeTheFramebuffer: a 00E0, a Reset and a Step that change it. -/
theorem witness_OnlyDrawClearAndResetChangeTheFramebuffer :
    (∃ t, exec .cls (State.reset.toggleCells [5]) = .next t ∧ t.FB ≠ (State.reset.toggleCells [5]).FB) ∧
    (∃ t, transition .reset (State.reset.toggleCells [5]) = .next t ∧ t.FB ≠ (State.reset.toggleCells [5]).FB) ∧
    ∃ t, cpuStep ((State.reset.toggleCells [5]).withFetchWord 16 0x00E0) = .next t ∧
      t.FB ≠ ((State.reset.toggleCells [5]).withFetchWord 16 0x00E0).FB :=
  ⟨⟨_, rfl, by decide +kernel⟩, ⟨_, rfl, by decide +kernel⟩, _, rfl, by decide +kernel⟩

/-- NoInstructionTouchesKeysOrControlBits: an instruction that answers a next state. -/
theorem witness_NoInstructionTouchesKeysOrControlBits : ∃ t, exec (.jp 0x204#12) State.reset = .next t := ⟨_, rfl⟩

/-- OnlyCallAndReturnUseTheStack: a call that writes the stack, and an instruction that is neither. -/
theorem witness_OnlyCallAndReturnUseTheStack :
    (∃ t, exec (.call 0x300#12) State.reset = .next t ∧ (t.STACK ≠ State.reset.STACK ∨ t.SP ≠ State.reset.SP)) ∧
    Instr.jp 0x300#12 ≠ .ret ∧ (∀ nnn, Instr.jp 0x300#12 ≠ .call nnn) ∧
    ∃ t, exec (.jp 0x300#12) State.reset = .next t :=
  ⟨⟨_, rfl, by decide⟩, by decide, fun nnn h => (nomatch h), _, rfl⟩

/-- PcIsSetByExactlyOneCase: an instruction that completes, one that waits, one that faults. -/
theorem witness_PcIsSetByExactlyOneCase :
    (∃ t, exec (.jpV0 0xFFF#12) State.reset.beginExec = .next t ∧ t.outcome = some .completed) ∧
    (∃ t, exec (.ldKey 0x3#4) State.reset.beginExec = .next t ∧ t.outcome ≠ some .completed) ∧
    ∃ t, exec .ret State.reset.beginExec = .next t ∧ t.outcome ≠ some .completed :=
  ⟨⟨_, rfl, rfl⟩, ⟨_, rfl, by decide⟩, _, rfl, by decide⟩

/-- EveryLowWriteIsRecorded: a store across 0x1FF and 0x200 changes a byte below 0x200. -/
theorem witness_EveryLowWriteIsRecorded :
    ∃ t, exec (.bcd 0x0#4) (digits 0x1FF#16) = .next t ∧ 0x1FF < 0x200 ∧
      t.byte 0x1FF ≠ (digits 0x1FF#16).byte 0x1FF := ⟨_, rfl, by decide, by decide⟩

/-- StoredWordIsFetched: two registers stored in the last two bytes of memory, and a fetch there. -/
theorem witness_StoredWordIsFetched :
    1 ≤ (0x1#4 : Reg).toNat ∧ (digits 0xFFE#16).indexAddr + (0x1#4 : Reg).toNat < 0x1000 ∧
    ∃ t u : State, exec (.store 0x1#4) (digits 0xFFE#16) = .next t ∧ u.MEM = t.MEM ∧ u.pc = (digits 0xFFE#16).I :=
  ⟨by decide, by decide, _, State.setPc _ 0xFFE#16, rfl, rfl, rfl⟩

/-- FlagOrdersAgreeAwayFromVF: two registers that are not VF. -/
theorem witness_FlagOrdersAgreeAwayFromVF : (0x0#4 : Reg) ≠ VF ∧ (0xE#4 : Reg) ≠ VF := by decide

/-- SpriteCellsAreDistinctAndLandOnScreen: 15 full rows at the last column and row. -/
theorem witness_SpriteCellsAreDistinctAndLandOnScreen :
    (List.replicate 15 0xFF#8).length ≤ 15 ∧ (63#8).toNat ≤ 63 ∧ (31#8).toNat ≤ 31 ∧
    2047 ∈ spriteCells 63#8 31#8 0 (List.replicate 15 0xFF#8) := by decide

/-- ReturnPopsAndLandsPastTheCall: an empty stack, one entry, and a full stack. -/
theorem witness_ReturnPopsAndLandsPastTheCall :
    State.reset.SP.val = 0 ∧ ({ State.reset with SP := 1 } : State).SP.val ≠ 0 ∧
    ({ State.reset with SP := 16 } : State).SP.val ≠ 0 := by decide

/-- CallPushesItsOwnAddress: a full stack, and the last free entry. -/
theorem witness_CallPushesItsOwnAddress :
    ({ State.reset with SP := 16 } : State).SP.val = 16 ∧ ({ State.reset with SP := 15 } : State).SP.val < 16 := by decide

/-- RegisterSkips: words of groups 5 and 9 whose bottom nibble is not 0. -/
theorem witness_RegisterSkips :
    (0x5011#16 &&& 0xF000#16 = 0x5000#16 ∨ 0x5011#16 &&& 0xF000#16 = 0x9000#16) ∧ fieldN 0x5011#16 ≠ 0#4 ∧
    (0x9FFF#16 &&& 0xF000#16 = 0x5000#16 ∨ 0x9FFF#16 &&& 0xF000#16 = 0x9000#16) ∧ fieldN 0x9FFF#16 ≠ 0#4 := by decide

/-- AddSetsCarry, SubtractSetsNoBorrow, ReverseSubtractSetsNoBorrow, AddToIndexFlagsPastFFF: the state in which VF has been
written first exists, and a destination is not VF (so for the two shifts). -/
theorem witness_flag_first :
    (0xE#4 : Reg) ≠ VF ∧ ∃ u : State, u = State.reset.setReg VF (if 255 + 1 > 255 then 1#8 else 0#8) := ⟨by decide, _, rfl⟩

/-- DecimalDigitsAreStored: I + 2 at 0x1000 and at 0xFFF. -/
theorem witness_DecimalDigitsAreStored :
    0x1000 ≤ (digits 0xFFE#16).indexAddr + 2 ∧ (digits 0xFFD#16).indexAddr + 2 < 0x1000 := by decide

/-- RegistersAreStoredAndIndexAdvances, RegistersAreLoadedAndIndexAdvances: I + X at 0x1000 and at 0xFFF, for X = F and X = 0. -/
theorem witness_store_and_load_ranges :
    0x1000 ≤ (digits 0xFF1#16).indexAddr + (0xF#4 : Reg).toNat ∧ (digits 0xFF0#16).indexAddr + (0xF#4 : Reg).toNat < 0x1000 ∧
    0x1000 ≤ (digits 0x1000#16).indexAddr + (0x0#4 : Reg).toNat ∧
    (digits 0xFFF#16).indexAddr + (0x0#4 : Reg).toNat < 0x1000 := by decide

/-- The state with one sprite row 80 at 0x300, drawn by registers 0 and 1. -/
def sprite (x y : Byte) : State := ((regs2 0x0#4 x 0x1#4 y).setI 0x300#16).storeBytes 0x300 [0x80#8]

/-- Only the leftmost pixel of the row 80 is set. -/
theorem sprite_pixel {x y : Byte} {r c : Nat} (h : SpritePixel (sprite x y) 0x1#4 r c) : r = 0 ∧ c = 0 := by
  obtain ⟨hr, hc, hp⟩ := h
  have hr : r = 0 := by simpa using hr
  subst hr
  have hb : (sprite x y).byte ((sprite x y).indexAddr + 0) = 0x80#8 := rfl
  rw [hb] at hp
  refine ⟨rfl, ?_⟩
  revert hp; revert c; decide

/-- DrawTogglesTheSpriteAndReportsCollision, the bounds of the sprite bytes: the last byte at 0x1000 and at 0xFFF, and N = 0. -/
theorem witness_draw_bounds :
    0 < (0x2#4 : Nibble).toNat ∧ 0x1000 ≤ (State.reset.setI 0xFFF#16).indexAddr + (0x2#4 : Nibble).toNat - 1 ∧
    (State.reset.setI 0xFFF#16).indexAddr + (0x1#4 : Nibble).toNat - 1 < 0x1000 ∧ (0x0#4 : Nibble).toNat = 0 := by decide

/-- The same, the first pixel without a cell: row 64 has none. -/
theorem witness_draw_no_cell :
    (sprite 0x00#8 0x40#8).indexAddr + (0x1#4 : Nibble).toNat - 1 < 0x1000 ∧
    SpritePixel (sprite 0x00#8 0x40#8) 0x1#4 0 0 ∧ PixelIndex (sprite 0x00#8 0x40#8) 0x0#4 0x1#4 0 0 = 2048 ∧
    ∀ r' c', SpritePixel (sprite 0x00#8 0x40#8) 0x1#4 r' c' → r' < 0 ∨ (r' = 0 ∧ c' < 0) →
      PixelIndex (sprite 0x00#8 0x40#8) 0x0#4 0x1#4 r' c' < 2048 :=
  ⟨by decide, ⟨by decide, by decide, by decide⟩, by decide, fun r' c' _ h => by omega⟩

/-- The same, every pixel with a cell: the last cell, 2047, clear before the draw, and set before it. -/
theorem witness_draw_on_screen :
    (∀ r c, SpritePixel (sprite 0x3F#8 0x1F#8) 0x1#4 r c → PixelIndex (sprite 0x3F#8 0x1F#8) 0x0#4 0x1#4 r c < 2048) ∧
    PixelIndex (sprite 0x3F#8 0x1F#8) 0x0#4 0x1#4 0 0 = 2047 ∧
    (∀ r c, SpritePixel (sprite 0x3F#8 0x1F#8) 0x1#4 r c →
      (sprite 0x3F#8 0x1F#8).cell (PixelIndex (sprite 0x3F#8 0x1F#8) 0x0#4 0x1#4 r c) = false) ∧
    SpritePixel ((sprite 0x3F#8 0x1F#8).toggleCells [2047]) 0x1#4 0 0 ∧
    ((sprite 0x3F#8 0x1F#8).toggleCells [2047]).cell
      (PixelIndex ((sprite 0x3F#8 0x1F#8).toggleCells [2047]) 0x0#4 0x1#4 0 0) = true := by
  refine ⟨fun r c h => ?_, by decide, fun r c h => ?_, ⟨by decide, by decide, by decide⟩, by decide +kernel⟩
  · obtain ⟨rfl, rfl⟩ := sprite_pixel h; decide
  · obtain ⟨rfl, rfl⟩ := sprite_pixel h; decide +kernel

/-- KeySkips: the last key index, and the first past it. -/
theorem witness_KeySkips :
    16 ≤ ((State.reset.setReg 0x5#4 0x10#8).reg 0x5#4).toNat ∧ ((State.reset.setReg 0x5#4 0x0F#8).reg 0x5#4).toNat < 16 := by
  decide

/-- KeyWaitHoldsUntilAKeyIsPressed: no key pressed, and the last key pressed. -/
theorem witness_KeyWaitHoldsUntilAKeyIsPressed :
    (∀ k, State.reset.key k = false) ∧ ∃ k, (State.reset.setKey 15 true).key k = true := by
  refine ⟨fun k => ?_, 15, by decide⟩
  unfold State.key State.reset
  rcases Nat.lt_or_ge k 16 with h | h <;> simp [h]

/-- The decoding clauses (DecodesAs) of the statements: a word that matches each row's value under its mask. -/
theorem witness_rows :
    (opcodeTable.map fun row => (row.value ||| ~~~row.mask) &&& row.mask) = opcodeTable.map (·.value) := by decide

end Sys2Proof.Tests
end

section
/-! Reset: what each accessor reads after it, and the reset table R34. -/

namespace Sys2Proof

namespace Config

@[simp] theorem length_font : font.length = 80 := rfl

/-- Past the font the reset memory is zero (R34). -/
theorem resetByte_of_font_le {a : Nat} (h : 80 ≤ a) : resetByte a = 0#8 :=
  List.getD_eq_default font 0#8 (by simpa using h)

end Config

namespace Machine

section
variable (s : State)

@[simp] theorem resetCore_I : (resetCore s).I = 0x0000#16 := rfl
@[simp] theorem resetCore_pc : (resetCore s).pc = 0x0200#16 := rfl
@[simp] theorem resetCore_SP : (resetCore s).SP = 0 := rfl
@[simp] theorem resetCore_DT : (resetCore s).DT = 0#8 := rfl
@[simp] theorem resetCore_ST : (resetCore s).ST = 0#8 := rfl
@[simp] theorem resetCore_paused : (resetCore s).paused = false := rfl
@[simp] theorem resetCore_running : (resetCore s).running = s.running := rfl
@[simp] theorem resetCore_outputs : (resetCore s).outputs = [] := rfl
@[simp] theorem resetCore_byte (a : Nat) : (resetCore s).byte a = Config.resetByte a := rfl

@[simp] theorem resetCore_reg (r : Reg) : (resetCore s).reg r = 0#8 := Vector.getElem_replicate _

@[simp] theorem resetCore_cell (p : Nat) : (resetCore s).cell p = false := BitVec.getLsbD_zero

/-- Every stack entry is cleared; an index that names none reads as 0 as well (R25, R34). -/
@[simp] theorem resetCore_stackEntry (k : Nat) : (resetCore s).stackEntry k = 0x0000#16 := by
  change ((Vector.replicate 16 0x0000#16)[k]?).getD 0x0000#16 = 0x0000#16
  rw [Vector.getElem?_replicate]
  split <;> rfl

/-- No key is pressed; an index that names none reads as not pressed as well (R29, R34). -/
@[simp] theorem resetCore_key (k : Nat) : (resetCore s).key k = false := by
  change ((Vector.replicate 16 false)[k]?).getD false = false
  rw [Vector.getElem?_replicate]
  split <;> rfl

@[simp] theorem resetCore_resetCore : resetCore (resetCore s) = resetCore s := rfl

@[simp] theorem resetCore_reset : resetCore State.reset = State.reset := rfl

@[simp] theorem transition_reset : transition .reset s = .next (resetCore s) := rfl

/-- Initialize leaves the clocks stopped whether or not the image fits (R303, R304). -/
@[simp] theorem initializeCore_running (image : List Byte) : (initializeCore image s).running = false := rfl

end

/-- Settles O1: each clause is the reading lemma of its accessor, the two memory clauses being the two sides of the end
of the font. -/
theorem resetGivesTheResetTable : Obligations.ResetGivesTheResetTable := fun s =>
  ⟨resetCore_reg s, resetCore_I s, resetCore_pc s, congrArg Fin.val (resetCore_SP s), resetCore_stackEntry s,
    resetCore_DT s, resetCore_ST s, fun a _ => resetCore_byte s a,
    fun a ha => (resetCore_byte s a).trans (Config.resetByte_of_font_le ha),
    resetCore_cell s, resetCore_key s, resetCore_paused s, resetCore_running s, resetCore_outputs s,
    transition_reset s, resetCore_resetCore s, resetCore_reset, fun image => initializeCore_running s image⟩

end Machine

end Sys2Proof
end

section
/-! Load: what an image that fits leaves at every address, and the rejection of one that does not (R69, R70). -/

namespace Sys2Proof

/-- The capacity is 4096 - 0x200 bytes (R70). -/
theorem imageFits_iff {image : List Byte} : imageFits image = true ↔ image.length ≤ 3584 := decide_eq_true_iff

namespace Machine

theorem loadImage_of_length_le {image : List Byte} (h : image.length ≤ 3584) (s : State) :
    loadImage image s = { s with MEM := s.MEM.writeList 0x200 image } :=
  if_pos (imageFits_iff.mpr h)

theorem loadImage_of_lt_length {image : List Byte} (h : 3584 < image.length) (s : State) :
    loadImage image s = s.emit (.rejected .loadCapacity) :=
  if_neg fun hfits => (imageFits_iff.mp hfits).not_gt h

/-- Every byte after the load of an image that fits (R69). -/
theorem byte_loadImage {image : List Byte} (h : image.length ≤ 3584) (s : State) (a : Nat) :
    (loadImage image s).byte a =
      if 0x200 ≤ a ∧ a < 0x200 + image.length then image.getD (a - 0x200) 0#8 else s.byte a := by
  rw [loadImage_of_length_le h]
  exact Memory.read_writeList s.MEM 0x200 image a

theorem byte_loadImage_inside {image : List Byte} (h : image.length ≤ 3584) (s : State) {k : Nat}
    (hk : k < image.length) : (loadImage image s).byte (0x200 + k) = image.getD k 0#8 := by
  rw [byte_loadImage h, if_pos (by omega), Nat.add_sub_cancel_left]

theorem byte_loadImage_outside {image : List Byte} (h : image.length ≤ 3584) (s : State) {a : Nat}
    (ha : a < 0x200 ∨ 0x200 + image.length ≤ a) : (loadImage image s).byte a = s.byte a := by
  rw [byte_loadImage h, if_neg (by omega)]

/-- The frame of a host operation that sets memory alone. -/
theorem State.changesOnly_fresh_memory (s : State) (m : Memory) :
    ChangesOnly [] [.memory, .outcome, .outputs] s { s.fresh with MEM := m } := by
  refine ⟨fun _ _ => rfl, fun p hp => ?_⟩
  cases p with
  | memory | outcome | outputs => exact absurd (by decide) hp
  | stack => exact ⟨rfl, fun _ => rfl⟩
  | framebuffer | keys => exact fun _ => rfl
  | _ => rfl

/-- What a host operation reports changes nothing of the core. -/
theorem State.sameCore_fresh_emit (s : State) (o : Output) : SameCore s (s.fresh.emit o) := by
  simp [SameCore]

/-- With the clocks stopped a Load is admitted (R71). -/
theorem transition_load_of_stopped {s : State} (hstopped : s.running = false) (image : List Byte) :
    transition (.load image) s = .next (loadImage image s.fresh) := by
  simp [transition, hstopped]

/-- Settles O18: the two clauses are the two sides of the capacity; below it the bytes are those of the read after a
write of consecutive bytes. -/
theorem loadCopiesTheImageOrIsRejected : Obligations.LoadCopiesTheImageOrIsRejected := by
  intro s image hstopped
  refine ⟨_, transition_load_of_stopped hstopped image, fun hfits => ?_, fun hlong => ?_⟩
  · refine ⟨fun k hk => byte_loadImage_inside hfits s.fresh hk,
      fun a ha => byte_loadImage_outside hfits s.fresh ha, ?_⟩
    rw [loadImage_of_length_le hfits]
    exact ⟨rfl, rfl, s.changesOnly_fresh_memory _⟩
  · rw [loadImage_of_lt_length hlong]
    exact ⟨s.sameCore_fresh_emit _, rfl⟩

end Machine

end Sys2Proof
end

section
/-! Fetch: when it faults, the word it reads, and the step that follows (R82, R252, R253, R255). -/

namespace Sys2Proof

/-- The word of two bytes as a number: it does not wrap, so the byte at the lower address is the high byte (R65). -/
theorem toNat_wordOfBytes (hi lo : Byte) : (wordOfBytes hi lo).toNat = hi.toNat * 0x100 + lo.toNat := by
  have hhi := hi.isLt
  have hlo := lo.isLt
  exact (BitVec.toNat_ofNat _ _).trans (Nat.mod_eq_of_lt (by omega))

namespace Machine

section
variable {s : State}

/-- The fetch goes through when both bytes lie in memory (R82). -/
theorem fetchFault_of_lt (h : s.pc.toNat + 1 < 0x1000) : fetchFault s = none :=
  rangeFault_eq_none.mpr (.inr h)

/-- Else it is MemoryBounds of the lower address that does not exist: pc + 1 when pc is the last byte, and pc beyond
that (R82, R255). -/
theorem fetchFault_of_le (h : 0x1000 ≤ s.pc.toNat + 1) :
    fetchFault s = some (.memoryBounds (if s.pc.toNat < 0x1000 then s.pc.toNat + 1 else s.pc.toNat)) := by
  have hlowest : (if s.pc.toNat < 0x1000 then s.pc.toNat + 1 else s.pc.toNat) = max s.pc.toNat Config.memSize := by
    change _ = max s.pc.toNat 0x1000
    split <;> omega
  rw [hlowest]
  exact rangeFault_eq_some.mpr ⟨by decide, Nat.lt_succ_of_le h, rfl⟩

theorem cpuStep_of_fetchFault {f : Fault} (hp : s.paused = false) (hf : fetchFault s = some f) :
    cpuStep s = .next (s.report none f) := by
  simp [cpuStep, hp, hf]

theorem cpuStep_of_unknownWord {e : DecodeError} (hp : s.paused = false) (hf : fetchFault s = none)
    (hd : decodeWord (fetchWord s) = .error e) : cpuStep s = .next (s.raise .unknownOpcode) := by
  simp [cpuStep, hp, hf, decode_fetchBytes, hd, Except.map]

theorem cpuStep_of_decoded {i : Instr} (hp : s.paused = false) (hf : fetchFault s = none)
    (hd : decodeWord (fetchWord s) = .ok i) : cpuStep s = runInstr s i := by
  simp [cpuStep, hp, hf, decode_fetchBytes, hd, Except.map]

end

/-- Taking a fault changes nothing of the core (R251). -/
theorem State.sameCore_report (s : State) (w : Option Word) (f : Fault) : SameCore s (s.report w f) := by
  simp [SameCore]

/-- Settles O9: the first clause is the report of the fetch's fault, the second splits on what the fetched word
decodes to. -/
theorem fetchIsBigEndianAndChecked : Obligations.FetchIsBigEndianAndChecked := by
  intro s hp
  refine ⟨fun hout => ?_, fun hin => ⟨toNat_wordOfBytes _ _, ?_⟩⟩
  · exact ⟨_, cpuStep_of_fetchFault hp (fetchFault_of_le hout), s.sameCore_report _ _, rfl, rfl⟩
  · have hf := fetchFault_of_lt hin
    cases hd : decodeWord (fetchWord s) with
    | ok i => exact .inl ⟨i, rfl, cpuStep_of_decoded hp hf hd⟩
    | error e => exact .inr ⟨e, _, rfl, cpuStep_of_unknownWord hp hf hd, s.sameCore_report _ _, rfl⟩

end Machine

end Sys2Proof
end

section
/-! Rows of the opcode map that the top nibble decides (R85, R86). -/

namespace Sys2Proof.Machine

/-- A row whose mask is the top nibble alone: it is enough to decode the words with the row's top nibble. -/
theorem decodesAs_of_fieldT {value : Word} {f : Word → Instr}
    (h : ∀ w, fieldT w = value.extractLsb' 12 4 → decodeWord w = .ok (f w)) : DecodesAs value 0xF000#16 f :=
  fun w hw => h w (fieldT_of_mask hw rfl)

end Sys2Proof.Machine
end

section
/-! Frames of the control transfers: what a write of pc, a push and a pop leave unchanged (R24, R25, R26). -/

namespace Sys2Proof.Machine

theorem keeps_refl (p : Part) (s : State) : Keeps p s s := by
  cases p with
  | stack => exact ⟨rfl, fun _ => rfl⟩
  | memory | framebuffer | keys => exact fun _ => rfl
  | _ => rfl

/-- pc is no part, so a frame does not see it. -/
@[simp] theorem keeps_setPc {p : Part} {s t : State} {target : Word} : Keeps p s (t.setPc target) ↔ Keeps p s t := by
  cases p <;> exact Iff.rfl

/-- Every part but the stack is kept when the entries and the depth alone are set. -/
theorem keeps_with_stack {p : Part} (hp : p ≠ .stack) (s : State) (entries : Vector Word 16) (depth : Fin 17) :
    Keeps p s { s with STACK := entries, SP := depth } := by
  cases p with
  | stack => exact absurd rfl hp
  | memory | framebuffer | keys => exact fun _ => rfl
  | _ => rfl

theorem changesOnly_refl (regs : List Reg) (changed : List Part) (s : State) : ChangesOnly regs changed s s :=
  ⟨fun _ _ => rfl, fun p _ => keeps_refl p s⟩

/-- A frame leaves pc open, so an instruction may end by writing it. -/
theorem ChangesOnly.setPc {regs : List Reg} {changed : List Part} {s t : State} (h : ChangesOnly regs changed s t)
    (target : Word) : ChangesOnly regs changed s (t.setPc target) :=
  ⟨h.1, fun p hp => keeps_setPc.mpr (h.2 p hp)⟩

theorem changesOnly_push (s : State) (a : Word) : ChangesOnly [] [.stack] s (s.push a) :=
  ⟨fun _ _ => rfl, fun _ hp => keeps_with_stack (List.ne_of_not_mem_cons hp) s _ _⟩

theorem changesOnly_pop (s : State) : ChangesOnly [] [.stack] s s.pop :=
  ⟨fun _ _ => rfl, fun _ hp => keeps_with_stack (List.ne_of_not_mem_cons hp) s s.STACK _⟩

end Sys2Proof.Machine
end

section
/-! Control transfer: 00EE, 1NNN, 2NNN and BNNN (R110 to R113). -/

namespace Sys2Proof.Machine

@[simp] theorem toNat_addrWord (nnn : Addr) : (addrWord nnn).toNat = nnn.toNat :=
  BitVec.toNat_setWidth_of_le (by decide)

@[simp] theorem toNat_byteWord (v : Byte) : (byteWord v).toNat = v.toNat :=
  BitVec.toNat_setWidth_of_le (by decide)

/-- The target of BNNN is at most 0xFFF + 0xFF, so the sum of R113 does not wrap. -/
theorem toNat_addr_add_toNat_byte_le (nnn : Addr) (v : Byte) : nnn.toNat + v.toNat ≤ 0x10FE := by
  have hnnn := nnn.isLt
  have hv := v.isLt
  omega

theorem toNat_addrWord_add_byteWord (nnn : Addr) (v : Byte) :
    (addrWord nnn + byteWord v).toNat = nnn.toNat + v.toNat := by
  have hle := toNat_addr_add_toNat_byte_le nnn v
  rw [BitVec.toNat_add, toNat_addrWord, toNat_byteWord, Nat.mod_eq_of_lt (by omega)]

section
variable {s : State}

theorem exec_ret_of_empty (h : s.SP.val = 0) : exec .ret s = .next (s.raise .stackUnderflow) := if_pos h

theorem exec_ret_of_nonempty (h : s.SP.val ≠ 0) : exec .ret s = .next (s.pop.setPc (s.top + 2#16)) := if_neg h

theorem exec_call_of_full (nnn : Addr) (h : s.SP.val = 16) :
    exec (.call nnn) s = .next (s.raise .stackOverflow) := if_pos h

theorem exec_call_of_free (nnn : Addr) (h : s.SP.val < 16) :
    exec (.call nnn) s = .next ((s.push s.pc).setPc (addrWord nnn)) := if_neg h.ne

end

/-- The row of 00EE masks the whole word, so it is decided by evaluation. -/
theorem decodesAs_ret : DecodesAs 0x00EE#16 0xFFFF#16 fun _ => .ret := by
  intro w hw
  have hw : w = 0x00EE#16 := (BitVec.and_allOnes (x := w)).symm.trans hw
  rw [hw]
  decide

theorem decodesAs_jp : DecodesAs 0x1000#16 0xF000#16 fun w => .jp (fieldNNN w) :=
  decodesAs_of_fieldT fun w hT => by simp [decodeWord, hT]

theorem decodesAs_call : DecodesAs 0x2000#16 0xF000#16 fun w => .call (fieldNNN w) :=
  decodesAs_of_fieldT fun w hT => by simp [decodeWord, hT]

theorem decodesAs_jpV0 : DecodesAs 0xB000#16 0xF000#16 fun w => .jpV0 (fieldNNN w) :=
  decodesAs_of_fieldT fun w hT => by simp [decodeWord, hT]

/-- Settles O30: the two clauses are the two branches of 00EE; a pop keeps the entries. -/
theorem returnPopsAndLandsPastTheCall : Obligations.ReturnPopsAndLandsPastTheCall := by
  refine ⟨decodesAs_ret, fun s => ⟨fun hempty => ?_, fun hne => ?_⟩⟩
  · exact raisesAt_of_exec (exec_ret_of_empty hempty) (exec_ret_of_empty (s := s.beginExec) hempty)
  · exact ⟨_, exec_ret_of_nonempty hne, s.val_SP_pop, s.stackEntry_pop, BitVec.toNat_add _ _,
      (changesOnly_pop s).setPc _⟩

/-- Settles O31: 1NNN is a write of pc alone. -/
theorem jumpSetsPc : Obligations.JumpSetsPc :=
  ⟨decodesAs_jp, fun nnn s => ⟨_, rfl, toNat_addrWord nnn, (changesOnly_refl [] [] s).setPc _⟩⟩

/-- Settles O32: the two clauses are the two branches of 2NNN; the entries are those after a push with a free entry. -/
theorem callPushesItsOwnAddress : Obligations.CallPushesItsOwnAddress := by
  refine ⟨decodesAs_call, fun nnn s => ⟨fun hfull => ?_, fun hfree => ?_⟩⟩
  · exact raisesAt_of_exec (exec_call_of_full nnn hfull) (exec_call_of_full (s := s.beginExec) nnn hfull)
  · have hentry := s.stackEntry_push s.pc hfree
    exact ⟨_, exec_call_of_free nnn hfree, (hentry _).trans (if_pos rfl), fun k hk => (hentry k).trans (if_neg hk),
      s.val_SP_push s.pc hfree, toNat_addrWord nnn, (changesOnly_push s s.pc).setPc _⟩

/-- Settles O33: BNNN is a write of pc alone, and its target does not wrap. -/
theorem offsetJumpAddsV0 : Obligations.OffsetJumpAddsV0 := by
  refine ⟨decodesAs_jpV0, fun nnn s => ?_⟩
  have htarget := toNat_addrWord_add_byteWord nnn (s.reg 0#4)
  exact ⟨_, rfl, htarget, htarget.trans_le (toNat_addr_add_toNat_byte_le nnn _), (changesOnly_refl [] [] s).setPc _⟩

end Sys2Proof.Machine
end

section
/-! Rows of the opcode map that the top and the bottom nibble decide, and the end of a straight-line instruction: the
advance of pc, plain or conditional (R24, R84, R85). -/

namespace Sys2Proof.Machine

/-- A row whose mask is the top and the bottom nibble: it is enough to decode the words with the row's two nibbles. -/
theorem decodesAs_of_fieldT_fieldN {value : Word} {f : Word → Instr}
    (h : ∀ w, fieldT w = value.extractLsb' 12 4 → fieldN w = value.extractLsb' 0 4 → decodeWord w = .ok (f w)) :
    DecodesAs value 0xF00F#16 f :=
  fun w hw => h w (fieldT_of_mask hw rfl) (fieldN_of_mask hw rfl)

theorem State.pcPlus_advance (s : State) (k : Nat) : PcPlus k s (s.advance k) := by
  simp [PcPlus, BitVec.toNat_add]

/-- A frame leaves pc open, so an instruction may end by advancing it. -/
theorem ChangesOnly.advance {regs : List Reg} {changed : List Part} {s t : State} (h : ChangesOnly regs changed s t)
    (k : Nat) : ChangesOnly regs changed s (t.advance k) :=
  h.setPc _

/-- A skip on a condition the model tests as a Bool: pc + 4 when it holds and pc + 2 otherwise. -/
theorem State.pcPlus_skipIf (s : State) {c : Bool} {p : Prop} [Decidable p] (hc : c = true ↔ p) :
    PcPlus (if p then 4 else 2) s (s.skipIf c) := by
  simp only [← hc]
  exact s.pcPlus_advance _

/-- What an instruction that answers a skip does: pc by the condition, and nothing else. -/
theorem skips_of_exec {i : Instr} {s : State} {c : Bool} {p : Prop} [Decidable p]
    (hexec : exec i s = .next (s.skipIf c)) (hc : c = true ↔ p) :
    ∃ t, exec i s = .next t ∧ PcPlus (if p then 4 else 2) s t ∧ ChangesOnly [] [] s t :=
  ⟨_, hexec, s.pcPlus_skipIf hc, (changesOnly_refl [] [] s).advance _⟩

end Sys2Proof.Machine
end

section
/-! Conditional skips: 3XNN, 4XNN, 5XY0 and 9XY0 (R130 to R133). -/

namespace Sys2Proof.Machine

theorem decodesAs_seImm : DecodesAs 0x3000#16 0xF000#16 fun w => .seImm (fieldX w) (fieldNN w) :=
  decodesAs_of_fieldT fun w hT => by simp [decodeWord, hT]

theorem decodesAs_sneImm : DecodesAs 0x4000#16 0xF000#16 fun w => .sneImm (fieldX w) (fieldNN w) :=
  decodesAs_of_fieldT fun w hT => by simp [decodeWord, hT]

/-- Groups 0x5 and 0x9 hold one row each, that of the bottom nibble 0 (R85). -/
theorem decodeWord_of_fieldT_five {w : Word} (hT : fieldT w = 0x5#4) :
    decodeWord w = if fieldN w = 0#4 then .ok (.seReg (fieldX w) (fieldY w)) else .error (.unknownWord w) := by
  simp [decodeWord, hT]

theorem decodeWord_of_fieldT_nine {w : Word} (hT : fieldT w = 0x9#4) :
    decodeWord w = if fieldN w = 0#4 then .ok (.sneReg (fieldX w) (fieldY w)) else .error (.unknownWord w) := by
  simp [decodeWord, hT]

theorem decodesAs_seReg : DecodesAs 0x5000#16 0xF00F#16 fun w => .seReg (fieldX w) (fieldY w) :=
  decodesAs_of_fieldT_fieldN fun _ hT hN => (decodeWord_of_fieldT_five hT).trans (if_pos hN)

theorem decodesAs_sneReg : DecodesAs 0x9000#16 0xF00F#16 fun w => .sneReg (fieldX w) (fieldY w) :=
  decodesAs_of_fieldT_fieldN fun _ hT hN => (decodeWord_of_fieldT_nine hT).trans (if_pos hN)

/-- Settles O34: both instructions answer a skip, on the test of the register against the immediate. -/
theorem immediateSkips : Obligations.ImmediateSkips :=
  ⟨decodesAs_seImm, decodesAs_sneImm, fun _ _ _ => ⟨skips_of_exec rfl beq_iff_eq, skips_of_exec rfl bne_iff_ne⟩⟩

/-- Settles O35: both instructions answer a skip, on the test of the two registers; the Unknown words are the other
branch of the two groups. -/
theorem registerSkips : Obligations.RegisterSkips := by
  refine ⟨decodesAs_seReg, decodesAs_sneReg, fun w hgroup hN => ?_, fun x y s => ?_⟩
  · rcases hgroup with hfive | hnine
    · exact (decodeWord_of_fieldT_five (fieldT_of_mask hfive rfl)).trans (if_neg hN)
    · exact (decodeWord_of_fieldT_nine (fieldT_of_mask hnine rfl)).trans (if_neg hN)
  · exact ⟨skips_of_exec rfl beq_iff_eq, skips_of_exec rfl bne_iff_ne⟩

end Sys2Proof.Machine
end

section
/-! The frame of a register write, and what an instruction that ends by writing a register, or a register and the flag,
does (R20, R84, R150). -/

namespace Sys2Proof.Machine

theorem State.reg_setReg_of_ne (s : State) {q r : Reg} (h : q ≠ r) (v : Byte) : (s.setReg r v).reg q = s.reg q :=
  (s.reg_setReg r v q).trans (if_neg h)

/-- A register is no part, so the parts of a frame do not see its write. -/
@[simp] theorem keeps_setReg {p : Part} {s t : State} {r : Reg} {v : Byte} :
    Keeps p s (t.setReg r v) ↔ Keeps p s t := by
  cases p <;> exact Iff.rfl

/-- A register the frame lists may be written once more. -/
theorem ChangesOnly.setReg {regs : List Reg} {changed : List Part} {s t : State} (h : ChangesOnly regs changed s t)
    {r : Reg} (hr : r ∈ regs) (v : Byte) : ChangesOnly regs changed s (t.setReg r v) := by
  refine ⟨fun q hq => ?_, fun p hp => keeps_setReg.mpr (h.2 p hp)⟩
  have hne : q ≠ r := fun e => hq (e ▸ hr)
  exact (t.reg_setReg_of_ne hne v).trans (h.1 q hq)

theorem State.changesOnly_setReg (s : State) (x : Reg) (v : Byte) : ChangesOnly [x] [] s (s.setReg x v) :=
  (changesOnly_refl [x] [] s).setReg List.mem_cons_self v

section
variable {s : State} {x : Reg} {result flag : Byte} {m n : Nat}

/-- An instruction that writes VX alone, its value given bit by bit. -/
theorem bits_of_exec {i : Instr} {bits : Nat → Bool} (hexec : exec i s = .next ((s.setReg x result).advance 2))
    (hbits : ∀ b, result.getLsbD b = bits b) :
    ∃ t, exec i s = .next t ∧ (∀ b, (t.reg x).getLsbD b = bits b) ∧ PcPlus 2 s t ∧ ChangesOnly [x] [] s t := by
  refine ⟨_, hexec, fun b => ?_, s.pcPlus_advance 2, (s.changesOnly_setReg x result).advance 2⟩
  rw [State.advance_reg, State.reg_setReg_same, hbits]

/-- An instruction that writes its result and then the flag: the flag is in VF, and the result in VX unless X = F. -/
theorem flagLast_of_exec {i : Instr} (hexec : exec i s = .next (((s.setReg x result).setReg VF flag).advance 2))
    (hresult : result.toNat = m) (hflag : flag.toNat = n) :
    ∃ t, exec i s = .next t ∧ (x ≠ VF → (t.reg x).toNat = m) ∧ (t.reg VF).toNat = n ∧ PcPlus 2 s t ∧
      ChangesOnly [x, VF] [] s t := by
  refine ⟨_, hexec, fun hx => ?_, ?_, s.pcPlus_advance 2, ?_⟩
  · rw [State.advance_reg, State.reg_setReg_of_ne _ hx, State.reg_setReg_same, hresult]
  · rw [State.advance_reg, State.reg_setReg_same, hflag]
  · exact (((changesOnly_refl _ _ s).setReg (by simp) result).setReg (by simp) flag).advance 2

/-- A result read off and written after the flag: it is in VX, and the flag stays in VF unless X = F. `computed` is the
flag as the model computes it, `flag` the same as a statement writes it. -/
theorem flagFirst_setReg {computed : Byte} {f : State → Byte} {u : State} (hflag : computed = flag)
    (hu : u = s.setReg VF flag) (hresult : (f u).toNat = m) :
    ((withFlag .flagFirst computed (fun v => v.setReg x (f v)) s).reg x).toNat = m ∧
      (x ≠ VF → (withFlag .flagFirst computed (fun v => v.setReg x (f v)) s).reg VF = u.reg VF) ∧
      ChangesOnly [x, VF] [] s (withFlag .flagFirst computed (fun v => v.setReg x (f v)) s) := by
  rw [withFlag_flagFirst, hflag, ← hu]
  refine ⟨?_, fun hx => u.reg_setReg_of_ne hx.symm _, ?_⟩
  · rw [State.reg_setReg_same, hresult]
  · rw [hu]
    exact ((changesOnly_refl _ _ s).setReg (by simp) flag).setReg (by simp) _

end

end Sys2Proof.Machine
end

section
/-! The values of the flag and of the result, as numbers (R157 to R161). -/

namespace Sys2Proof.Machine

/-- A bit given as a number, read off as a flag, is that number. -/
theorem toNat_flagByte_decide {k : Nat} (hk : k < 2) : (flagByte (decide (k = 1))).toNat = k := by
  interval_cases k <;> rfl

/-- The carry is taken before the add, and is the overflow of the unbounded sum (R157). -/
theorem carryFlag_eq (a b : Byte) : carryFlag a b = if a.toNat + b.toNat > 255 then 1#8 else 0#8 := by
  have hcarry : b.toNat > 0xFF - a.toNat ↔ a.toNat + b.toNat > 255 := by
    have ha := a.isLt
    omega
  simp [carryFlag, flagByte, hcarry]

theorem toNat_carryFlag (a b : Byte) : (carryFlag a b).toNat = if a.toNat + b.toNat > 255 then 1 else 0 := by
  rw [carryFlag_eq, apply_ite BitVec.toNat]
  rfl

theorem noBorrowFlag_eq (a b : Byte) : noBorrowFlag a b = if b.toNat > a.toNat then 0#8 else 1#8 := by
  by_cases hborrow : b.toNat > a.toNat <;> simp [noBorrowFlag, flagByte, hborrow]

theorem toNat_noBorrowFlag (a b : Byte) : (noBorrowFlag a b).toNat = if b.toNat > a.toNat then 0 else 1 := by
  rw [noBorrowFlag_eq, apply_ite BitVec.toNat]
  rfl

/-- Bit 0 is the remainder of the halving (R159). -/
theorem toNat_shiftRightFlag (a : Byte) : (shiftRightFlag a).toNat = a.toNat % 2 := by
  rw [shiftRightFlag, BitVec.getLsbD, Nat.testBit_zero, toNat_flagByte_decide (Nat.mod_lt _ (by decide))]

/-- Bit 7 is the quotient by 2^7, as a byte has no bit above it (R161). -/
theorem toNat_shiftLeftFlag (a : Byte) : (shiftLeftFlag a).toNat = a.toNat / 2 ^ 7 := by
  have hbit : a.toNat / 2 ^ 7 < 2 := Nat.div_lt_of_lt_mul a.isLt
  rw [shiftLeftFlag, BitVec.getLsbD, Nat.testBit_eq_decide_div_mod_eq, Nat.mod_eq_of_lt hbit,
    toNat_flagByte_decide hbit]

/-- The difference modulo 2^8, as the spec writes it (R158, R160). -/
theorem toNat_byte_sub (a b : Byte) : (a - b).toNat = (a.toNat + 2 ^ 8 - b.toNat) % 2 ^ 8 := by
  have hb := b.isLt
  rw [BitVec.toNat_sub]
  congr 1
  omega

theorem toNat_byte_ushiftRight_one (a : Byte) : (a >>> 1).toNat = a.toNat / 2 := by
  rw [BitVec.toNat_ushiftRight, Nat.shiftRight_eq_div_pow, pow_one]

theorem toNat_byte_shiftLeft_one (a : Byte) : (a <<< 1).toNat = a.toNat * 2 % 2 ^ 8 := by
  rw [BitVec.toNat_shiftLeft, Nat.shiftLeft_eq, pow_one]

end Sys2Proof.Machine
end

section
/-! Register loads and the arithmetic that writes no flag: 6XNN, 7XNN and 8XY0 to 8XY3 (R151 to R156). -/

namespace Sys2Proof.Machine

theorem decodesAs_ldImm : DecodesAs 0x6000#16 0xF000#16 fun w => .ldImm (fieldX w) (fieldNN w) :=
  decodesAs_of_fieldT fun w hT => by simp [decodeWord, hT]

theorem decodesAs_addImm : DecodesAs 0x7000#16 0xF000#16 fun w => .addImm (fieldX w) (fieldNN w) :=
  decodesAs_of_fieldT fun w hT => by simp [decodeWord, hT]

theorem decodeWord_of_fieldT_eight {w : Word} (hT : fieldT w = 0x8#4) : decodeWord w = decodeGroup8 w := by
  simp [decodeWord, hT]

/-- A row of group 0x8: the bottom nibble chooses the instruction (R85). -/
theorem decodesAs_of_decodeGroup8 {n : Nibble} {f : Word → Instr}
    (h : ∀ w, fieldN w = n → decodeGroup8 w = .ok (f w)) : DecodesAs (packXYN 0x8#4 0x0#4 0x0#4 n) 0xF00F#16 f := by
  refine decodesAs_of_fieldT_fieldN fun w hT hN => ?_
  exact (decodeWord_of_fieldT_eight (hT.trans (fieldT_packXYN _ _ _ n))).trans
    (h w (hN.trans (fieldN_packXYN _ _ _ n)))

theorem decodesAs_ldReg : DecodesAs 0x8000#16 0xF00F#16 fun w => .ldReg (fieldX w) (fieldY w) :=
  decodesAs_of_decodeGroup8 (n := 0x0#4) fun w hN => by simp [decodeGroup8, hN]

theorem decodesAs_orReg : DecodesAs 0x8001#16 0xF00F#16 fun w => .orReg (fieldX w) (fieldY w) :=
  decodesAs_of_decodeGroup8 (n := 0x1#4) fun w hN => by simp [decodeGroup8, hN]

theorem decodesAs_andReg : DecodesAs 0x8002#16 0xF00F#16 fun w => .andReg (fieldX w) (fieldY w) :=
  decodesAs_of_decodeGroup8 (n := 0x2#4) fun w hN => by simp [decodeGroup8, hN]

theorem decodesAs_xorReg : DecodesAs 0x8003#16 0xF00F#16 fun w => .xorReg (fieldX w) (fieldY w) :=
  decodesAs_of_decodeGroup8 (n := 0x3#4) fun w hN => by simp [decodeGroup8, hN]

/-- Settles O36: 6XNN is a write of VX alone. -/
theorem loadImmediate : Obligations.LoadImmediate :=
  ⟨decodesAs_ldImm, fun x nn s =>
    ⟨_, rfl, s.reg_setReg_same x nn, s.pcPlus_advance 2, (s.changesOnly_setReg x nn).advance 2⟩⟩

/-- Settles O37: 7XNN is a write of VX alone, and the sum of bytes is the sum modulo 2^8. -/
theorem addImmediateWrapsWithoutFlag : Obligations.AddImmediateWrapsWithoutFlag := by
  refine ⟨decodesAs_addImm, fun x nn s => ⟨_, rfl, ?_, s.pcPlus_advance 2, (s.changesOnly_setReg x _).advance 2⟩⟩
  rw [State.advance_reg, State.reg_setReg_same, BitVec.toNat_add]

/-- Settles O38: 8XY0 is a write of VX alone. -/
theorem copyRegister : Obligations.CopyRegister :=
  ⟨decodesAs_ldReg, fun x y s =>
    ⟨_, rfl, s.reg_setReg_same x (s.reg y), s.pcPlus_advance 2, (s.changesOnly_setReg x _).advance 2⟩⟩

/-- Settles O39: each of the three is a write of VX alone, and its bits are those of the operation on bit vectors. -/
theorem bitwiseOperations : Obligations.BitwiseOperations :=
  ⟨decodesAs_orReg, decodesAs_andReg, decodesAs_xorReg, fun _ _ _ =>
    ⟨bits_of_exec rfl fun _ => BitVec.getLsbD_or, bits_of_exec rfl fun _ => BitVec.getLsbD_and,
      bits_of_exec rfl fun _ => BitVec.getLsbD_xor⟩⟩

end Sys2Proof.Machine
end

section
/-! The arithmetic that writes the flag: 8XY4 to 8XY7 and 8XYE (R150, R157 to R161). -/

namespace Sys2Proof.Machine

theorem decodesAs_addReg : DecodesAs 0x8004#16 0xF00F#16 fun w => .addReg (fieldX w) (fieldY w) :=
  decodesAs_of_decodeGroup8 (n := 0x4#4) fun w hN => by simp [decodeGroup8, hN]

theorem decodesAs_subReg : DecodesAs 0x8005#16 0xF00F#16 fun w => .subReg (fieldX w) (fieldY w) :=
  decodesAs_of_decodeGroup8 (n := 0x5#4) fun w hN => by simp [decodeGroup8, hN]

theorem decodesAs_shr : DecodesAs 0x8006#16 0xF00F#16 fun w => .shr (fieldX w) (fieldY w) :=
  decodesAs_of_decodeGroup8 (n := 0x6#4) fun w hN => by simp [decodeGroup8, hN]

theorem decodesAs_subnReg : DecodesAs 0x8007#16 0xF00F#16 fun w => .subnReg (fieldX w) (fieldY w) :=
  decodesAs_of_decodeGroup8 (n := 0x7#4) fun w hN => by simp [decodeGroup8, hN]

theorem decodesAs_shl : DecodesAs 0x800E#16 0xF00F#16 fun w => .shl (fieldX w) (fieldY w) :=
  decodesAs_of_decodeGroup8 (n := 0xE#4) fun w hN => by simp [decodeGroup8, hN]

/-- Settles O40: with the flag last the sum is that of the operands before; with the flag first `addWith` writes VF and
then the sum of the operands read again. -/
theorem addSetsCarry : Obligations.AddSetsCarry := by
  refine ⟨decodesAs_addReg, fun x y s => ⟨?_, fun u hu => ?_⟩⟩
  · exact flagLast_of_exec rfl (BitVec.toNat_add _ _) (toNat_carryFlag _ _)
  · exact flagFirst_setReg (carryFlag_eq _ _) hu (BitVec.toNat_add _ _)

/-- Settles O41: as for 8XY4, with the difference and the flag of no borrow. -/
theorem subtractSetsNoBorrow : Obligations.SubtractSetsNoBorrow := by
  refine ⟨decodesAs_subReg, fun x y s => ⟨?_, fun u hu => ?_⟩⟩
  · exact flagLast_of_exec rfl (toNat_byte_sub _ _) (toNat_noBorrowFlag _ _)
  · exact flagFirst_setReg (noBorrowFlag_eq _ _) hu (toNat_byte_sub _ _)

/-- Settles O42: the operand is halved, and the bit shifted out is the remainder. -/
theorem shiftRightKeepsTheBitInVF : Obligations.ShiftRightKeepsTheBitInVF :=
  ⟨decodesAs_shr, fun _ _ _ => flagLast_of_exec rfl (toNat_byte_ushiftRight_one _) (toNat_shiftRightFlag _)⟩

/-- Settles O43: 8XY5 with the operands of the difference and of the borrow exchanged. -/
theorem reverseSubtractSetsNoBorrow : Obligations.ReverseSubtractSetsNoBorrow := by
  refine ⟨decodesAs_subnReg, fun x y s => ⟨?_, fun u hu => ?_⟩⟩
  · exact flagLast_of_exec rfl (toNat_byte_sub _ _) (toNat_noBorrowFlag _ _)
  · exact flagFirst_setReg (noBorrowFlag_eq _ _) hu (toNat_byte_sub _ _)

/-- Settles O44: the operand is doubled modulo 2^8, and the bit shifted out is bit 7. -/
theorem shiftLeftKeepsTheBitInVF : Obligations.ShiftLeftKeepsTheBitInVF :=
  ⟨decodesAs_shl, fun _ _ _ => flagLast_of_exec rfl (toNat_byte_shiftLeft_one _) (toNat_shiftLeftFlag _)⟩

end Sys2Proof.Machine
end

section
/-! Rows of the opcode map of group 0xF, the frames of a write of I, of a store and of a load of registers, and the check
of the bytes an instruction reaches through I (R24, R64, R68, R85, R190). -/

namespace Sys2Proof.Machine

theorem decodeWord_of_fieldT_fifteen {w : Word} (hT : fieldT w = 0xF#4) : decodeWord w = decodeGroupF w := by
  simp [decodeWord, hT]

/-- A row of group 0xF: the bottom byte chooses the instruction (R85). -/
theorem decodesAs_of_decodeGroupF {nn : Byte} {f : Word → Instr}
    (h : ∀ w, fieldNN w = nn → decodeGroupF w = .ok (f w)) : DecodesAs (packXNN 0xF#4 0x0#4 nn) 0xF0FF#16 f := by
  intro w hw
  have hT : fieldT w = 0xF#4 := (fieldT_of_mask hw rfl).trans (fieldT_packXNN _ _ nn)
  have hNN : fieldNN w = nn := (fieldNN_of_mask hw rfl).trans (fieldNN_packXNN _ _ nn)
  exact (decodeWord_of_fieldT_fifteen hT).trans (h w hNN)

/-- An instruction that keeps pc until it ends by advancing it. -/
theorem pcPlus_advance_of_pc_eq {s t : State} (hpc : t.pc = s.pc) (k : Nat) : PcPlus k s (t.advance k) := by
  rw [PcPlus, ← hpc]
  exact t.pcPlus_advance k

theorem keeps_setI {p : Part} (hp : p ≠ .index) {s t : State} {v : Word} : Keeps p s (t.setI v) ↔ Keeps p s t := by
  cases p with
  | index => exact absurd rfl hp
  | _ => exact Iff.rfl

theorem keeps_storeBytes {p : Part} (hm : p ≠ .memory) (hl : p ≠ .lowWrites) {s t : State} {base : Nat}
    {bytes : List Byte} : Keeps p s (t.storeBytes base bytes) ↔ Keeps p s t := by
  cases p with
  | memory => exact absurd rfl hm
  | lowWrites => exact absurd rfl hl
  | _ => exact Iff.rfl

/-- Registers are no part, so the parts of a frame do not see a write of several. -/
@[simp] theorem keeps_setRegsFrom {p : Part} {s t : State} {k : Nat} {bytes : List Byte} :
    Keeps p s (t.setRegsFrom k bytes) ↔ Keeps p s t := by
  rw [State.setRegsFrom_frame]
  cases p <;> exact Iff.rfl

section
variable {regs : List Reg} {changed : List Part} {s t : State}

/-- A frame that lists I allows one more write of it. -/
theorem ChangesOnly.setI (h : ChangesOnly regs changed s t) (hi : Part.index ∈ changed) (v : Word) :
    ChangesOnly regs changed s (t.setI v) :=
  ⟨h.1, fun p hp => (keeps_setI (ne_of_mem_of_not_mem hi hp).symm).mpr (h.2 p hp)⟩

/-- A frame that lists memory and the LowWrite events allows one more store. -/
theorem ChangesOnly.storeBytes (h : ChangesOnly regs changed s t) (hm : Part.memory ∈ changed)
    (hl : Part.lowWrites ∈ changed) (base : Nat) (bytes : List Byte) :
    ChangesOnly regs changed s (t.storeBytes base bytes) :=
  ⟨h.1, fun p hp =>
    (keeps_storeBytes (ne_of_mem_of_not_mem hm hp).symm (ne_of_mem_of_not_mem hl hp).symm).mpr (h.2 p hp)⟩

end

section
variable {s : State} {base : Nat}

/-- The bytes stored, each at its offset (R195, R196). -/
theorem State.byte_storeBytes_add {bytes : List Byte} {k : Nat} (h : k < bytes.length) :
    (s.storeBytes base bytes).byte (base + k) = bytes.getD k 0#8 := by
  rw [State.byte_storeBytes, if_pos (by omega), Nat.add_sub_cancel_left]

theorem State.byte_storeBytes_outside {bytes : List Byte} {a : Nat} (h : a < base ∨ base + bytes.length ≤ a) :
    (s.storeBytes base bytes).byte a = s.byte a := by
  rw [State.byte_storeBytes, if_neg (by omega)]

/-- The check of the bytes from `base` to `base + k` fails when the last one does not exist (R64, R255). -/
theorem rangeFault_of_le {k : Nat} (h : 0x1000 ≤ base + k) :
    rangeFault base (k + 1) = some (.memoryBounds (max base 0x1000)) :=
  rangeFault_eq_some.mpr ⟨k.succ_ne_zero, Nat.lt_succ_of_le h, rfl⟩

theorem rangeFault_of_lt {k : Nat} (h : base + k < 0x1000) : rangeFault base (k + 1) = none :=
  rangeFault_eq_none.mpr (.inr h)

end

end Sys2Proof.Machine
end

section
/-! Writes of the index register: ANNN, FX1E and FX29 (R191, R192, R194). -/

namespace Sys2Proof.Machine

theorem decodesAs_ldI : DecodesAs 0xA000#16 0xF000#16 fun w => .ldI (fieldNNN w) :=
  decodesAs_of_fieldT fun w hT => by simp [decodeWord, hT]

theorem decodesAs_addI : DecodesAs 0xF01E#16 0xF0FF#16 fun w => .addI (fieldX w) :=
  decodesAs_of_decodeGroupF (nn := 0x1E#8) fun w hNN => by simp [decodeGroupF, hNN]

theorem decodesAs_ldFont : DecodesAs 0xF029#16 0xF0FF#16 fun w => .ldFont (fieldX w) :=
  decodesAs_of_decodeGroupF (nn := 0x29#8) fun w hNN => by simp [decodeGroupF, hNN]

/-- Five times a byte fits a word, so the glyph address does not wrap (R194). -/
theorem toNat_glyphAddr (v : Byte) : (glyphAddr v).toNat = 5 * v.toNat := by
  have hv := v.isLt
  rw [glyphAddr, Config.glyphStride, BitVec.toNat_ofNat, Nat.mod_eq_of_lt (by omega), Nat.mul_comm]

theorem toNat_word_add_byteWord (i : Word) (v : Byte) : (i + byteWord v).toNat = (i.toNat + v.toNat) % 2 ^ 16 := by
  rw [BitVec.toNat_add, toNat_byteWord]

theorem indexFlag_eq (i : Word) (a : Byte) : indexFlag i a = if i.toNat + a.toNat > 0xFFF then 1#8 else 0#8 := by
  simp [indexFlag, flagByte]

theorem toNat_indexFlag (i : Word) (a : Byte) :
    (indexFlag i a).toNat = if i.toNat + a.toNat > 0xFFF then 1 else 0 := by
  rw [indexFlag_eq, apply_ite BitVec.toNat]
  rfl

/-- An instruction that writes I alone. -/
theorem index_of_exec {i : Instr} {s : State} {v : Word} {n : Nat} (hexec : exec i s = .next ((s.setI v).advance 2))
    (hv : v.toNat = n) :
    ∃ t, exec i s = .next t ∧ t.I.toNat = n ∧ PcPlus 2 s t ∧ ChangesOnly [] [.index] s t :=
  ⟨_, hexec, hv, s.pcPlus_advance 2, ((changesOnly_refl _ _ s).setI (by simp) v).advance 2⟩

/-- Settles O46: ANNN is a write of I alone, and the address field is extended with zeros. -/
theorem loadIndex : Obligations.LoadIndex :=
  ⟨decodesAs_ldI, fun nnn _ => index_of_exec rfl (toNat_addrWord nnn)⟩

/-- Settles O47: with the flag last VF is written over a sum already taken; with the flag first I takes the sum of the
operand read again. -/
theorem addToIndexFlagsPastFFF : Obligations.AddToIndexFlagsPastFFF := by
  refine ⟨decodesAs_addI, fun x s => ⟨?_, fun u hu => ?_⟩⟩
  · refine ⟨_, rfl, toNat_word_add_byteWord _ _, ?_, s.pcPlus_advance 2, ?_⟩
    · rw [State.advance_reg]
      exact (congrArg _ (State.reg_setReg_same _ VF _)).trans (toNat_indexFlag _ _)
    · exact (((changesOnly_refl _ _ s).setI (by simp) _).setReg (by simp) _).advance 2
  · have hwrite : addIndexWith .flagFirst x s = u.setI (u.I + byteWord (u.reg x)) := by
      rw [addIndexWith, withFlag_flagFirst, indexFlag_eq, ← hu]
    have hI : u.I = s.I := hu ▸ rfl
    rw [hwrite]
    refine ⟨?_, rfl, ?_⟩
    · rw [State.setI_I, toNat_word_add_byteWord, hI]
    · rw [hu]
      exact ((changesOnly_refl _ _ s).setReg (by simp) _).setI (by simp) _

/-- Settles O48: FX29 is a write of I alone, and the glyph address does not wrap. -/
theorem fontAddressIsFiveTimesTheDigit : Obligations.FontAddressIsFiveTimesTheDigit :=
  ⟨decodesAs_ldFont, fun x s => index_of_exec rfl (toNat_glyphAddr (s.reg x))⟩

end Sys2Proof.Machine
end

section
/-! Transfers through I: FX33, FX55 and FX65 (R195 to R197). -/

namespace Sys2Proof.Machine

theorem decodesAs_bcd : DecodesAs 0xF033#16 0xF0FF#16 fun w => .bcd (fieldX w) :=
  decodesAs_of_decodeGroupF (nn := 0x33#8) fun w hNN => by simp [decodeGroupF, hNN]

theorem decodesAs_store : DecodesAs 0xF055#16 0xF0FF#16 fun w => .store (fieldX w) :=
  decodesAs_of_decodeGroupF (nn := 0x55#8) fun w hNN => by simp [decodeGroupF, hNN]

theorem decodesAs_load : DecodesAs 0xF065#16 0xF0FF#16 fun w => .load (fieldX w) :=
  decodesAs_of_decodeGroupF (nn := 0x65#8) fun w hNN => by simp [decodeGroupF, hNN]

section
variable {s : State} (x : Reg)

theorem exec_bcd_of_le (h : 0x1000 ≤ s.indexAddr + 2) :
    exec (.bcd x) s = .next (s.raise (.memoryBounds (max s.indexAddr 0x1000))) := by
  simp only [exec, execBcd, rangeFault_of_le h]

theorem exec_bcd_of_lt (h : s.indexAddr + 2 < 0x1000) :
    exec (.bcd x) s = .next ((s.storeBytes s.indexAddr (decimalDigits (s.reg x))).advance 2) := by
  simp only [exec, execBcd, rangeFault_of_lt h]

variable {x}

theorem exec_store_of_le (h : 0x1000 ≤ s.indexAddr + x.toNat) :
    exec (.store x) s = .next (s.raise (.memoryBounds (max s.indexAddr 0x1000))) := by
  simp only [exec, execStore, regCount, rangeFault_of_le h]

theorem exec_store_of_lt (h : s.indexAddr + x.toNat < 0x1000) :
    exec (.store x) s = .next (((s.storeBytes s.indexAddr (s.regList (regCount x))).setI
      (s.I + BitVec.ofNat 16 (regCount x))).advance 2) := by
  simp only [exec, execStore, regCount, rangeFault_of_lt h]

theorem exec_load_of_le (h : 0x1000 ≤ s.indexAddr + x.toNat) :
    exec (.load x) s = .next (s.raise (.memoryBounds (max s.indexAddr 0x1000))) := by
  simp only [exec, execLoad, regCount, rangeFault_of_le h]

theorem exec_load_of_lt (h : s.indexAddr + x.toNat < 0x1000) :
    exec (.load x) s = .next (((s.setRegsFrom 0 (s.MEM.readList s.indexAddr (regCount x))).setI
      (s.I + BitVec.ofNat 16 (regCount x))).advance 2) := by
  simp only [exec, execLoad, regCount, rangeFault_of_lt h]

end

/-- I after a transfer of V0 to VX (R196, R197). -/
theorem toNat_word_add_regCount (i : Word) (x : Reg) :
    (i + BitVec.ofNat 16 (regCount x)).toNat = (i.toNat + x.toNat + 1) % 2 ^ 16 := by
  rw [BitVec.toNat_add, BitVec.toNat_ofNat, Nat.add_mod_mod, regCount, Nat.add_assoc]

theorem regCount_le (x : Reg) : regCount x ≤ 16 := x.isLt

theorem State.getD_regList_toNat (s : State) {n : Nat} {r : Reg} (h : r.toNat < n) :
    (s.regList n).getD r.toNat 0#8 = s.reg r := by
  rw [s.getD_regList n r.toNat h, BitVec.ofNat_toNat, BitVec.setWidth_eq]

/-- V0 to VX hold the bytes read, and the registers above X what they held (R197). -/
theorem State.reg_setRegsFrom_readList (s : State) (a : Nat) (x r : Reg) :
    (s.setRegsFrom 0 (s.MEM.readList a (regCount x))).reg r =
      if r.toNat ≤ x.toNat then s.byte (a + r.toNat) else s.reg r := by
  have hlen : (s.MEM.readList a (regCount x)).length = regCount x := Memory.length_readList _ _ _
  rw [State.reg_setRegsFrom _ _ _ (by simpa [hlen] using regCount_le x), hlen]
  by_cases hr : r.toNat ≤ x.toNat
  · have hlt : r.toNat < regCount x := Nat.lt_succ_of_le hr
    rw [if_pos (by omega), if_pos hr]
    exact Memory.getD_readList _ _ _ _ hlt
  · have hge : regCount x ≤ r.toNat := Nat.lt_of_not_le hr
    rw [if_neg (by omega), if_neg hr]

theorem State.setRegsFrom_pc (s : State) (k : Nat) (bytes : List Byte) : (s.setRegsFrom k bytes).pc = s.pc := by
  rw [State.setRegsFrom_frame]

/-- A byte has at most three digits, and each fits a byte (R195). -/
theorem toNat_getD_decimalDigits (v : Byte) :
    ((decimalDigits v).getD 0 0#8).toNat = v.toNat / 100 ∧ ((decimalDigits v).getD 1 0#8).toNat = v.toNat / 10 % 10 ∧
      ((decimalDigits v).getD 2 0#8).toNat = v.toNat % 10 := by
  have hv := v.isLt
  refine ⟨?_, ?_, ?_⟩ <;> exact (BitVec.toNat_ofNat _ _).trans (Nat.mod_eq_of_lt (by omega))

/-- Settles O49: the two clauses are the two sides of the check; the stored bytes are the digits at their offsets. -/
theorem decimalDigitsAreStored : Obligations.DecimalDigitsAreStored := by
  refine ⟨decodesAs_bcd, fun x s => ⟨fun hout => ?_, fun hin => ?_⟩⟩
  · exact raisesAt_of_exec (exec_bcd_of_le x hout) (exec_bcd_of_le (s := s.beginExec) x hout)
  · obtain ⟨hhundreds, htens, hunits⟩ := toNat_getD_decimalDigits (s.reg x)
    have hstored : ∀ k < 3, (s.storeBytes s.indexAddr (decimalDigits (s.reg x))).byte (s.indexAddr + k) =
        (decimalDigits (s.reg x)).getD k 0#8 := fun _ hk => State.byte_storeBytes_add hk
    exact ⟨_, exec_bcd_of_lt x hin, (congrArg _ (hstored 0 (by decide))).trans hhundreds,
      (congrArg _ (hstored 1 (by decide))).trans htens, (congrArg _ (hstored 2 (by decide))).trans hunits,
      fun _ ha => State.byte_storeBytes_outside ha, rfl, s.pcPlus_advance 2,
      ((changesOnly_refl _ _ s).storeBytes (by simp) (by simp) _ _).advance 2⟩

/-- Settles O50: the two clauses are the two sides of the check; the byte at offset r is the r-th of the registers. -/
theorem registersAreStoredAndIndexAdvances : Obligations.RegistersAreStoredAndIndexAdvances := by
  refine ⟨decodesAs_store, fun x s => ⟨fun hout => ?_, fun hin => ?_⟩⟩
  · exact raisesAt_of_exec (exec_store_of_le hout) (exec_store_of_le (s := s.beginExec) hout)
  · have hlen : (s.regList (regCount x)).length = x.toNat + 1 := s.length_regList _
    refine ⟨_, exec_store_of_lt hin, fun r hr => ?_, fun a ha => ?_, toNat_word_add_regCount s.I x, ?_,
      s.pcPlus_advance 2, (((changesOnly_refl _ _ s).storeBytes (by simp) (by simp) _ _).setI (by simp) _).advance 2⟩
    · have hlt : r.toNat < regCount x := Nat.lt_succ_of_le hr
      exact (State.byte_storeBytes_add (hlt.trans_eq hlen.symm)).trans (s.getD_regList_toNat hlt)
    · exact State.byte_storeBytes_outside (by omega)
    · rw [← hlen]
      rfl

/-- Settles O51: the two clauses are the two sides of the check; a write of registers is no part of the frame. -/
theorem registersAreLoadedAndIndexAdvances : Obligations.RegistersAreLoadedAndIndexAdvances := by
  refine ⟨decodesAs_load, fun x s => ⟨fun hout => ?_, fun hin => ?_⟩⟩
  · exact raisesAt_of_exec (exec_load_of_le hout) (exec_load_of_le (s := s.beginExec) hout)
  · refine ⟨_, exec_load_of_lt hin, s.reg_setRegsFrom_readList s.indexAddr x, toNat_word_add_regCount s.I x,
      pcPlus_advance_of_pc_eq (s.setRegsFrom_pc 0 _) 2, fun p hp => ?_⟩
    have hindex : p ≠ .index := List.ne_of_not_mem_cons hp
    exact keeps_setPc.mpr ((keeps_setI hindex).mpr (keeps_setRegsFrom.mpr (keeps_refl p s)))

end Sys2Proof.Machine
end

section
/-! Frames of a write of the framebuffer, and rows of the opcode map that the whole word decides (R28, R85). -/

namespace Sys2Proof.Machine

/-- A row whose mask is the whole word: it is enough to decode the row's own word. -/
theorem decodesAs_of_decodeWord {value : Word} {i : Instr} (h : decodeWord value = .ok i) :
    DecodesAs value 0xFFFF#16 fun _ => i := by
  intro w hw
  have hw : w = value := (BitVec.and_allOnes (x := w)).symm.trans hw
  rw [hw, h]

theorem keeps_with_FB {p : Part} (hp : p ≠ .framebuffer) {s t : State} {cells : BitVec 2048} :
    Keeps p s { t with FB := cells } ↔ Keeps p s t := by
  cases p with
  | framebuffer => exact absurd rfl hp
  | _ => exact Iff.rfl

/-- A frame that lists the framebuffer allows one more write of it. -/
theorem ChangesOnly.with_FB {regs : List Reg} {changed : List Part} {s t : State} (h : ChangesOnly regs changed s t)
    (hf : Part.framebuffer ∈ changed) (cells : BitVec 2048) : ChangesOnly regs changed s { t with FB := cells } :=
  ⟨h.1, fun p hp => (keeps_with_FB (ne_of_mem_of_not_mem hf hp).symm).mpr (h.2 p hp)⟩

end Sys2Proof.Machine
end

section
/-! The cells of a draw: the set pixels in their order, their distinctness, the first without a cell, and what toggling
them leaves in every cell (R211 to R214). -/

namespace Sys2Proof.Machine

/-- Pixel (r, c) of a sprite given by its rows is set (R211). -/
def PixelSet (rows : List Byte) (r c : Nat) : Prop :=
  r < rows.length ∧ c < 8 ∧ rowPixel (rows.getD r 0#8) c = true

theorem pixelSet_cons_zero {b : Byte} {rest : List Byte} {c : Nat} :
    PixelSet (b :: rest) 0 c ↔ c < 8 ∧ rowPixel b c = true := by
  simp [PixelSet]

theorem pixelSet_cons_succ {b : Byte} {rest : List Byte} {r c : Nat} :
    PixelSet (b :: rest) (r + 1) c ↔ PixelSet rest r c := by
  simp [PixelSet]

/-- The set pixels of the N-row sprite at I are those of the bytes DXYN reads. -/
theorem spritePixel_iff_pixelSet {s : State} {n : Nibble} {r c : Nat} :
    SpritePixel s n r c ↔ PixelSet (s.MEM.readList s.indexAddr n.toNat) r c := by
  rw [SpritePixel, PixelSet, Memory.length_readList]
  refine and_congr_right fun hr => ?_
  rw [Memory.getD_readList _ _ _ _ hr]
  rfl

section
variable {x y : Byte}

/-- The first cell of a row with a property is that of its first set pixel with it. -/
theorem find?_rowCells {P : Nat → Bool} {r c : Nat} {b : Byte} (hc : c < 8) (hset : rowPixel b c = true)
    (hP : P (flatIndex x y r c) = true)
    (hbefore : ∀ c' < c, rowPixel b c' = true → P (flatIndex x y r c') = false) :
    (rowCells x y r b).find? P = some (flatIndex x y r c) := by
  have hfirst : (List.range 8).find? (fun a => rowPixel b a = true ∧ (P ∘ flatIndex x y r) a = true) = some c :=
    List.find?_range_eq_some.mpr
      ⟨by simp [hset, hP], List.mem_range.mpr hc, fun c' hlt => by simpa [imp_iff_not_or] using hbefore c' hlt⟩
  rw [rowCells, List.find?_map, List.find?_filter, hfirst]
  rfl

/-- The first cell of a sprite with a property is that of its first set pixel with it, rows before columns (R213). -/
theorem find?_spriteCells {P : Nat → Bool} {r0 r c : Nat} {rows : List Byte} (hset : PixelSet rows r c)
    (hP : P (flatIndex x y (r0 + r) c) = true)
    (hbefore : ∀ r' c', PixelSet rows r' c' → r' < r ∨ (r' = r ∧ c' < c) → P (flatIndex x y (r0 + r') c') = false) :
    (spriteCells x y r0 rows).find? P = some (flatIndex x y (r0 + r) c) := by
  induction rows generalizing r0 r with
  | nil => exact absurd hset.1 (Nat.not_lt_zero r)
  | cons b rest ih =>
    rw [spriteCells, List.find?_append]
    cases r with
    | zero =>
      obtain ⟨hc, hb⟩ := pixelSet_cons_zero.mp hset
      have hrow : (rowCells x y r0 b).find? P = some (flatIndex x y r0 c) :=
        find?_rowCells hc hb hP fun c' hlt hb' =>
          hbefore 0 c' (pixelSet_cons_zero.mpr ⟨hlt.trans hc, hb'⟩) (.inr ⟨rfl, hlt⟩)
      rw [hrow]
      rfl
    | succ r =>
      have hrow : (rowCells x y r0 b).find? P = none := by
        refine List.find?_eq_none.mpr fun p hp => ?_
        obtain ⟨c', hc', hb', rfl⟩ := mem_rowCells.mp hp
        simpa using hbefore 0 c' (pixelSet_cons_zero.mpr ⟨hc', hb'⟩) (.inl r.succ_pos)
      have hshift : ∀ k, r0 + (k + 1) = r0 + 1 + k := fun k => by omega
      rw [hrow, Option.none_or, hshift r]
      refine ih (pixelSet_cons_succ.mp hset) (hshift r ▸ hP) fun r' c' hset' hlt => ?_
      rw [← hshift r']
      exact hbefore (r' + 1) c' (pixelSet_cons_succ.mpr hset') (by omega)

theorem nodup_rowCells {r : Nat} (hr : r < 15) (b : Byte) : (rowCells x y r b).Nodup := by
  refine List.Nodup.map_on (fun c hc c' hc' h => ?_) (List.nodup_range.filter _)
  exact (flatIndex_inj hr hr (List.mem_range.mp (List.mem_filter.mp hc).1)
    (List.mem_range.mp (List.mem_filter.mp hc').1) h).2

/-- The cells of one draw are distinct (R213). -/
theorem nodup_spriteCells {r0 : Nat} {rows : List Byte} (h : r0 + rows.length ≤ 15) :
    (spriteCells x y r0 rows).Nodup := by
  induction rows generalizing r0 with
  | nil => exact List.nodup_nil
  | cons b rest ih =>
    rw [List.length_cons] at h
    refine (nodup_rowCells (by omega) b).append (ih (by omega)) fun p hrow hrest => ?_
    obtain ⟨c, hc, -, rfl⟩ := mem_rowCells.mp hrow
    obtain ⟨r', c', hr', hc', -, heq⟩ := mem_spriteCells.mp hrest
    have hsame := (flatIndex_inj (by omega) (by omega) hc hc' heq).1
    omega

end

theorem drawFault_eq_none {cells : List Nat} (h : ∀ p ∈ cells, p < 2048) : drawFault cells = none := by
  rw [drawFault, List.find?_eq_none.mpr fun p hp => by simpa using h p hp]
  rfl

/-- Toggling distinct cells that exist changes each of them, and no other (R213). -/
theorem State.cell_toggleCells_of_nodup {s : State} {cells : List Nat} (hnodup : cells.Nodup)
    (hcells : ∀ p ∈ cells, p < 2048) (p : Nat) :
    (s.toggleCells cells).cell p = if p ∈ cells then !s.cell p else s.cell p := by
  rw [State.cell_toggleCells, hnodup.count]
  by_cases hp : p ∈ cells
  · simp [hp, hcells p hp]
  · simp [hp]

theorem collisionFlag_of_set {s : State} {cells : List Nat} (h : ∃ p ∈ cells, s.cell p = true) :
    collisionFlag s cells = 1#8 := by
  rw [collisionFlag, List.any_eq_true.mpr h]
  rfl

theorem collisionFlag_of_clear {s : State} {cells : List Nat} (h : ∀ p ∈ cells, s.cell p = false) :
    collisionFlag s cells = 0#8 := by
  rw [collisionFlag, List.any_eq_false.mpr fun p hp => by simp [h p hp]]
  rfl

section
variable {s : State} {x y : Reg} {n : Nibble}

theorem pixelIndex_eq_flatIndex (s : State) (x y : Reg) (r c : Nat) :
    PixelIndex s x y r c = flatIndex (s.reg x) (s.reg y) r c := rfl

/-- The cells of a draw are those of the sprite's set pixels. -/
theorem State.mem_drawCells {p : Nat} :
    p ∈ s.drawCells x y n ↔ ∃ r c, SpritePixel s n r c ∧ PixelIndex s x y r c = p := by
  simp only [State.drawCells, mem_spriteCells, spritePixel_iff_pixelSet, PixelSet, pixelIndex_eq_flatIndex,
    Nat.zero_add, and_assoc, eq_comm (a := p)]

theorem State.forall_mem_drawCells {P : Nat → Prop} :
    (∀ p ∈ s.drawCells x y n, P p) ↔ ∀ r c, SpritePixel s n r c → P (PixelIndex s x y r c) := by
  refine ⟨fun h r c hset => h _ (State.mem_drawCells.mpr ⟨r, c, hset, rfl⟩), fun h p hp => ?_⟩
  obtain ⟨r, c, hset, rfl⟩ := State.mem_drawCells.mp hp
  exact h r c hset

theorem State.nodup_drawCells : (s.drawCells x y n).Nodup := by
  refine nodup_spriteCells ?_
  rw [Memory.length_readList]
  have hn := n.isLt
  omega

/-- A draw faults on its first set pixel without a cell (R213). -/
theorem State.drawFault_drawCells {r c : Nat} (hset : SpritePixel s n r c) (hout : 2048 ≤ PixelIndex s x y r c)
    (hbefore : ∀ r' c', SpritePixel s n r' c' → r' < r ∨ (r' = r ∧ c' < c) → PixelIndex s x y r' c' < 2048) :
    drawFault (s.drawCells x y n) = some (.drawIndex (PixelIndex s x y r c)) := by
  simp only [spritePixel_iff_pixelSet, pixelIndex_eq_flatIndex] at hset hout hbefore ⊢
  rw [drawFault, State.drawCells, find?_spriteCells hset (by simpa using hout) (by simpa using hbefore), Nat.zero_add]
  rfl

end

end Sys2Proof.Machine
end

section
/-! Display: 00E0 and DXYN (R210, R213, R214). -/

namespace Sys2Proof.Machine

theorem decodesAs_cls : DecodesAs 0x00E0#16 0xFFFF#16 fun _ => .cls :=
  decodesAs_of_decodeWord rfl

theorem decodesAs_drw : DecodesAs 0xD000#16 0xF000#16 fun w => .drw (fieldX w) (fieldY w) (fieldN w) :=
  decodesAs_of_fieldT fun w hT => by simp [decodeWord, hT]

section
variable {s : State} {x y : Reg} {n : Nibble}

theorem exec_drw_of_rangeFault {f : Fault} (hrange : rangeFault s.indexAddr n.toNat = some f) :
    exec (.drw x y n) s = .next (s.raise f) := by
  simp only [exec, execDrw, hrange]

theorem exec_drw_of_drawFault {f : Fault} (hrange : rangeFault s.indexAddr n.toNat = none)
    (hdraw : drawFault (s.drawCells x y n) = some f) : exec (.drw x y n) s = .next (s.raise f) := by
  simp only [exec, execDrw, hrange, hdraw]

theorem exec_drw_of_cells (hrange : rangeFault s.indexAddr n.toNat = none)
    (hdraw : drawFault (s.drawCells x y n) = none) :
    exec (.drw x y n) s = .next (((s.toggleCells (s.drawCells x y n)).setReg VF
      (collisionFlag s (s.drawCells x y n))).advance 2) := by
  simp only [exec, execDrw, hrange, hdraw]

end

/-- Settles O52: 00E0 is a write of the framebuffer alone. -/
theorem clearClearsEveryCell : Obligations.ClearClearsEveryCell :=
  ⟨decodesAs_cls, fun s => ⟨_, rfl, fun p _ => s.cell_clearFB p, s.pcPlus_advance 2,
    ((changesOnly_refl [] _ s).with_FB (by simp) _).advance 2⟩⟩

/-- Settles O53: the three clauses are the three ways DXYN ends; the cells it toggles are distinct, so each of them
changes exactly once. -/
theorem drawTogglesTheSpriteAndReportsCollision : Obligations.DrawTogglesTheSpriteAndReportsCollision := by
  refine ⟨decodesAs_drw, fun x y n s => ⟨fun hpos hout => ?_, fun hin => ?_⟩⟩
  · have hend : 0x1000 < s.indexAddr + n.toNat := by omega
    have hrange : rangeFault s.indexAddr n.toNat = some (.memoryBounds (max s.indexAddr 0x1000)) :=
      rangeFault_eq_some.mpr ⟨hpos.ne', hend, rfl⟩
    exact raisesAt_of_exec (exec_drw_of_rangeFault hrange) (exec_drw_of_rangeFault (s := s.beginExec) hrange)
  · have hend : n.toNat = 0 ∨ s.indexAddr + n.toNat ≤ 0x1000 := by omega
    have hrange : rangeFault s.indexAddr n.toNat = none := rangeFault_eq_none.mpr hend
    refine ⟨fun r c hset hout hbefore => ?_, fun hcells => ?_⟩
    · have hdraw := State.drawFault_drawCells hset hout hbefore
      exact raisesAt_of_exec (exec_drw_of_drawFault hrange hdraw)
        (exec_drw_of_drawFault (s := s.beginExec) hrange hdraw)
    · have hlt : ∀ p ∈ s.drawCells x y n, p < 2048 := State.forall_mem_drawCells.mpr hcells
      have hcell := State.cell_toggleCells_of_nodup (s := s) State.nodup_drawCells hlt
      have hmem : ∀ r c, SpritePixel s n r c → PixelIndex s x y r c ∈ s.drawCells x y n :=
        fun r c hset => State.mem_drawCells.mpr ⟨r, c, hset, rfl⟩
      refine ⟨_, exec_drw_of_cells hrange (drawFault_eq_none hlt), fun r c hset => ?_, fun p hp => ?_, fun hhit => ?_,
        fun hclear => ?_, s.pcPlus_advance 2,
        (((changesOnly_refl _ _ s).with_FB (by simp) _).setReg (by simp) _).advance 2⟩
      · exact (hcell _).trans (if_pos (hmem r c hset))
      · exact (hcell p).trans (if_neg (by simpa [State.mem_drawCells] using hp))
      · obtain ⟨r, c, hset, hon⟩ := hhit
        exact (State.reg_setReg_same _ VF _).trans (collisionFlag_of_set ⟨_, hmem r c hset, hon⟩)
      · exact (State.reg_setReg_same _ VF _).trans (collisionFlag_of_clear (State.forall_mem_drawCells.mpr hclear))

end Sys2Proof.Machine
end

section
/-! Who changes the framebuffer (R215). -/

namespace Sys2Proof.Machine

@[simp] theorem loadImage_FB (image : List Byte) (s : State) : (loadImage image s).FB = s.FB := by
  unfold loadImage
  split <;> rfl

@[simp] theorem keyInput_FB (k : Nat) (b : Bool) (s : State) : (keyInput k b s).FB = s.FB := by
  unfold keyInput
  split <;> rfl

@[simp] theorem State.endExec_FB (t : State) (pc w : Word) : (t.endExec pc w).FB = t.FB := by
  rw [State.endExec_eq]

/-- Of the host moves and the two clocks, only the instruction clock and the two moves that reset change the
framebuffer. -/
theorem transition_FB {m : Move} {s t : State} (h : transition m s = .next t) (hFB : t.FB ≠ s.FB) :
    m = .instructionClock ∨ m = .reset ∨ ∃ image, m = .initCore image := by
  cases m with
  | instructionClock => exact .inl rfl
  | reset => exact .inr (.inl rfl)
  | initCore image => exact .inr (.inr ⟨image, rfl⟩)
  | timerClock =>
    simp only [transition] at h
    split at h <;> cases h <;> exact absurd rfl hFB
  | load image =>
    simp only [transition] at h
    split at h <;> cases h
    exact absurd (loadImage_FB image s.fresh) hFB
  | press k | release k =>
    cases h
    exact absurd (keyInput_FB k _ s.fresh) hFB
  | start | stop | setPaused b | readFramebuffer =>
    cases h
    exact absurd rfl hFB

/-- A Step changes the framebuffer only by executing an instruction that does. -/
theorem cpuStep_FB {s t : State} (h : cpuStep s = .next t) (hFB : t.FB ≠ s.FB) :
    ∃ i u, decodeWord (fetchWord s) = .ok i ∧ exec i s.beginExec = .next u ∧ u.FB ≠ s.beginExec.FB := by
  obtain ⟨-, rfl⟩ | ⟨-, f, -, rfl⟩ | ⟨-, e, -, -, rfl⟩ | ⟨-, i, u, -, hdecode, hexec, rfl⟩ := cpuStep_cases h
  · exact absurd rfl hFB
  · exact absurd rfl hFB
  · exact absurd rfl hFB
  · exact ⟨i, u, hdecode, hexec, by simpa using hFB⟩

/-- Settles O22: an instruction by `exec_FB`, a transition by its move, a Step by the instruction it executes. -/
theorem onlyDrawClearAndResetChangeTheFramebuffer : Obligations.OnlyDrawClearAndResetChangeTheFramebuffer := by
  refine ⟨fun _ _ _ => exec_FB, fun _ _ _ => transition_FB, fun s t h hFB => ?_⟩
  obtain ⟨i, u, hdecode, hexec, hFB⟩ := cpuStep_FB h hFB
  obtain rfl | ⟨x, y, n, rfl⟩ := exec_FB hexec hFB
  · exact .inl hdecode
  · exact .inr ⟨x, y, n, hdecode⟩

end Sys2Proof.Machine
end

section
/-! Rows of the opcode map that the top nibble and the bottom byte decide, and the frames of a write of a timer and of
the count of draws (R27, R85). -/

namespace Sys2Proof.Machine

/-- A row whose mask is the top nibble and the bottom byte: it is enough to decode the words with the row's two
fields. -/
theorem decodesAs_of_fieldT_fieldNN {value : Word} {f : Word → Instr}
    (h : ∀ w, fieldT w = value.extractLsb' 12 4 → fieldNN w = value.extractLsb' 0 8 → decodeWord w = .ok (f w)) :
    DecodesAs value 0xF0FF#16 f :=
  fun w hw => h w (fieldT_of_mask hw rfl) (fieldNN_of_mask hw rfl)

theorem keeps_setDT {p : Part} (hp : p ≠ .delayTimer) {s t : State} {v : Byte} :
    Keeps p s (t.setDT v) ↔ Keeps p s t := by
  cases p with
  | delayTimer => exact absurd rfl hp
  | _ => exact Iff.rfl

theorem keeps_setST {p : Part} (hp : p ≠ .soundTimer) {s t : State} {v : Byte} :
    Keeps p s (t.setST v) ↔ Keeps p s t := by
  cases p with
  | soundTimer => exact absurd rfl hp
  | _ => exact Iff.rfl

theorem keeps_countDraw {p : Part} (hp : p ≠ .draws) {s t : State} : Keeps p s t.countDraw ↔ Keeps p s t := by
  cases p with
  | draws => exact absurd rfl hp
  | _ => exact Iff.rfl

theorem State.changesOnly_setDT (s : State) (v : Byte) : ChangesOnly [] [.delayTimer] s (s.setDT v) :=
  ⟨fun _ _ => rfl, fun p hp => (keeps_setDT (List.ne_of_not_mem_cons hp)).mpr (keeps_refl p s)⟩

theorem State.changesOnly_setST (s : State) (v : Byte) : ChangesOnly [] [.soundTimer] s (s.setST v) :=
  ⟨fun _ _ => rfl, fun p hp => (keeps_setST (List.ne_of_not_mem_cons hp)).mpr (keeps_refl p s)⟩

/-- A frame that lists the count of draws allows one more draw. -/
theorem ChangesOnly.countDraw {regs : List Reg} {changed : List Part} {s t : State} (h : ChangesOnly regs changed s t)
    (hd : Part.draws ∈ changed) : ChangesOnly regs changed s t.countDraw :=
  ⟨h.1, fun p hp => (keeps_countDraw (ne_of_mem_of_not_mem hd hp).symm).mpr (h.2 p hp)⟩

end Sys2Proof.Machine
end

section
/-! Timers: FX07, FX15 and FX18 (R235 to R237). -/

namespace Sys2Proof.Machine

theorem decodesAs_ldFromDT : DecodesAs 0xF007#16 0xF0FF#16 fun w => .ldFromDT (fieldX w) :=
  decodesAs_of_decodeGroupF (nn := 0x07#8) fun w hNN => by simp [decodeGroupF, hNN]

theorem decodesAs_ldDT : DecodesAs 0xF015#16 0xF0FF#16 fun w => .ldDT (fieldX w) :=
  decodesAs_of_decodeGroupF (nn := 0x15#8) fun w hNN => by simp [decodeGroupF, hNN]

theorem decodesAs_ldST : DecodesAs 0xF018#16 0xF0FF#16 fun w => .ldST (fieldX w) :=
  decodesAs_of_decodeGroupF (nn := 0x18#8) fun w hNN => by simp [decodeGroupF, hNN]

/-- The tone is active exactly while ST is not 0 (R281). -/
theorem State.toneActive_iff (s : State) : s.toneActive = true ↔ s.ST.toNat ≠ 0 :=
  bne_iff_ne.trans (not_congr BitVec.toNat_inj.symm)

/-- Settles O56: FX07 is a write of VX alone. -/
theorem readDelayTimer : Obligations.ReadDelayTimer :=
  ⟨decodesAs_ldFromDT, fun x s => ⟨_, rfl, s.reg_setReg_same x s.DT, s.pcPlus_advance 2,
    (s.changesOnly_setReg x s.DT).advance 2⟩⟩

/-- Settles O57: FX15 is a write of DT alone. -/
theorem setDelayTimer : Obligations.SetDelayTimer :=
  ⟨decodesAs_ldDT, fun x s => ⟨_, rfl, rfl, s.pcPlus_advance 2, (s.changesOnly_setDT (s.reg x)).advance 2⟩⟩

/-- Settles O58: FX18 is a write of ST alone, and the tone is read off the value written. -/
theorem setSoundTimer : Obligations.SetSoundTimer :=
  ⟨decodesAs_ldST, fun x s => ⟨_, rfl, rfl, State.toneActive_iff _, s.pcPlus_advance 2,
    (s.changesOnly_setST (s.reg x)).advance 2⟩⟩

end Sys2Proof.Machine
end

section
/-! Keys: EX9E, EXA1 and FX0A (R230 to R234). -/

namespace Sys2Proof.Machine

theorem decodesAs_skp : DecodesAs 0xE09E#16 0xF0FF#16 fun w => .skp (fieldX w) :=
  decodesAs_of_fieldT_fieldNN fun w hT hNN => by simp [decodeWord, hT, decodeGroupE, hNN]

theorem decodesAs_sknp : DecodesAs 0xE0A1#16 0xF0FF#16 fun w => .sknp (fieldX w) :=
  decodesAs_of_fieldT_fieldNN fun w hT hNN => by simp [decodeWord, hT, decodeGroupE, hNN]

theorem decodesAs_ldKey : DecodesAs 0xF00A#16 0xF0FF#16 fun w => .ldKey (fieldX w) :=
  decodesAs_of_decodeGroupF (nn := 0x0A#8) fun w hNN => by simp [decodeGroupF, hNN]

theorem keyFault_of_le {v : Byte} (h : 16 ≤ v.toNat) : keyFault v = some (.keyIndex v.toNat) := if_pos h

theorem keyFault_of_lt {v : Byte} (h : v.toNat < 16) : keyFault v = none := if_neg h.not_ge

section
variable {s : State} {x : Reg}

theorem exec_skp_of_le (h : 16 ≤ (s.reg x).toNat) :
    exec (.skp x) s = .next (s.raise (.keyIndex (s.reg x).toNat)) := by
  simp only [exec, execSkp, keyFault_of_le h]

theorem exec_skp_of_lt (h : (s.reg x).toNat < 16) :
    exec (.skp x) s = .next (s.skipIf (s.key (s.reg x).toNat)) := by
  simp only [exec, execSkp, keyFault_of_lt h]

theorem exec_sknp_of_le (h : 16 ≤ (s.reg x).toNat) :
    exec (.sknp x) s = .next (s.raise (.keyIndex (s.reg x).toNat)) := by
  simp only [exec, execSknp, keyFault_of_le h]

theorem exec_sknp_of_lt (h : (s.reg x).toNat < 16) :
    exec (.sknp x) s = .next (s.skipIf (!s.key (s.reg x).toNat)) := by
  simp only [exec, execSknp, keyFault_of_lt h]

theorem exec_ldKey_of_none (h : s.pressedKeys = []) : exec (.ldKey x) s = .next (s.noProgress .keyWait) := if_pos h

theorem exec_ldKey_of_some (h : s.pressedKeys ≠ []) :
    exec (.ldKey x) s =
      .next ((s.setReg x (BitVec.ofNat 8 (selectKey s.draws s.pressedKeys))).countDraw.advance 2) := if_neg h

/-- A Step of FX0A with no key pressed does not complete, so no CycleCompleted fires (R233, R282). -/
theorem runInstr_ldKey_of_none (h : s.pressedKeys = []) :
    runInstr s (.ldKey x) = .next (s.noProgress .keyWait) := by
  have hexec : exec (.ldKey x) s.beginExec = .next (s.noProgress .keyWait) := exec_ldKey_of_none (s := s.beginExec) h
  simp [runInstr, hexec, State.endExec]

/-- An index of 16 or more names no key, so it is not pressed (R29). -/
theorem State.lt_of_key {k : Nat} (h : s.key k = true) : k < 16 := by
  by_contra hk
  rw [State.key, Vector.getElem?_eq_none (Nat.le_of_not_lt hk)] at h
  cases h

theorem State.pressedKeys_eq_nil_iff : s.pressedKeys = [] ↔ ∀ k, s.key k = false := by
  simp only [List.eq_nil_iff_forall_not_mem, State.mem_pressedKeys, not_and, Bool.not_eq_true]
  exact ⟨fun h k => Bool.eq_false_iff.mpr fun hk => Bool.eq_false_iff.mp (h k (State.lt_of_key hk)) hk,
    fun h k _ => h k⟩

end

/-- Settles O54: the two clauses are the two sides of the check of the key index; past it both instructions answer a
skip on the key. -/
theorem keySkips : Obligations.KeySkips := by
  refine ⟨decodesAs_skp, decodesAs_sknp, fun x s => ⟨fun hout => ⟨?_, ?_⟩, fun hin => ⟨?_, ?_⟩⟩⟩
  · exact raisesAt_of_exec (exec_skp_of_le hout) (exec_skp_of_le (s := s.beginExec) hout)
  · exact raisesAt_of_exec (exec_sknp_of_le hout) (exec_sknp_of_le (s := s.beginExec) hout)
  · exact skips_of_exec (exec_skp_of_lt hin) Iff.rfl
  · exact skips_of_exec (exec_sknp_of_lt hin) (iff_of_eq (Bool.not_eq_true' _))

/-- Settles O55: the two clauses are the two branches of FX0A; whichever element of the pressed keys is chosen, it is a
pressed key and fits a register. -/
theorem keyWaitHoldsUntilAKeyIsPressed : Obligations.KeyWaitHoldsUntilAKeyIsPressed := by
  refine ⟨decodesAs_ldKey, fun x s => ⟨fun hnone => ?_, fun ⟨k, hk⟩ => ?_⟩⟩
  · have hP : s.pressedKeys = [] := State.pressedKeys_eq_nil_iff.mpr hnone
    exact ⟨_, runInstr_ldKey_of_none hP, by simp [SameCore], rfl, rfl⟩
  · have hP : s.pressedKeys ≠ [] := fun h =>
      Bool.false_ne_true ((State.pressedKeys_eq_nil_iff.mp h k).symm.trans hk)
    obtain ⟨hlt, hpressed⟩ := (s.mem_pressedKeys _).mp (selectKey_mem s.draws hP)
    refine ⟨_, _, exec_ldKey_of_some hP, hlt, hpressed, ?_, s.pcPlus_advance 2, ?_⟩
    · rw [State.advance_reg, State.countDraw_reg, State.reg_setReg_same, BitVec.toNat_ofNat,
        Nat.mod_eq_of_lt (by omega)]
    · exact (((changesOnly_refl _ _ s).setReg (by simp) _).countDraw (by simp)).advance 2

end Sys2Proof.Machine
end

section
/-! Frames of the host operations and of the timer clock: the start of a transition, the pause bit, a key, and what is
put out (R280, R285). -/

namespace Sys2Proof.Machine

theorem keeps_fresh {p : Part} (ho : p ≠ .outcome) (hp : p ≠ .outputs) {s t : State} :
    Keeps p s t.fresh ↔ Keeps p s t := by
  cases p with
  | outcome => exact absurd rfl ho
  | outputs => exact absurd rfl hp
  | _ => exact Iff.rfl

theorem keeps_setPaused {p : Part} (hp : p ≠ .paused) {s t : State} {b : Bool} :
    Keeps p s (t.setPaused b) ↔ Keeps p s t := by
  cases p with
  | paused => exact absurd rfl hp
  | _ => exact Iff.rfl

theorem keeps_setKey {p : Part} (hp : p ≠ .keys) {s t : State} {k : Nat} {b : Bool} :
    Keeps p s (t.setKey k b) ↔ Keeps p s t := by
  cases p with
  | keys => exact absurd rfl hp
  | _ => exact Iff.rfl

theorem keeps_with_outputs {p : Part} (hp : p ≠ .outputs) {s t : State} {o : List Output} :
    Keeps p s { t with outputs := o } ↔ Keeps p s t := by
  cases p with
  | outputs => exact absurd rfl hp
  | _ => exact Iff.rfl

section
variable {regs : List Reg} {changed : List Part} {s t : State}

/-- A transition starts by clearing the outcome and what is put out, and these two alone (R280; log entry 4). -/
theorem State.changesOnly_fresh (ho : Part.outcome ∈ changed) (hp : Part.outputs ∈ changed) :
    ChangesOnly regs changed s s.fresh :=
  ⟨fun _ _ => rfl, fun p hc => (keeps_fresh (ne_of_mem_of_not_mem ho hc).symm
    (ne_of_mem_of_not_mem hp hc).symm).mpr (keeps_refl p s)⟩

theorem ChangesOnly.setPaused (h : ChangesOnly regs changed s t) (hc : Part.paused ∈ changed) (b : Bool) :
    ChangesOnly regs changed s (t.setPaused b) :=
  ⟨h.1, fun p hp => (keeps_setPaused (ne_of_mem_of_not_mem hc hp).symm).mpr (h.2 p hp)⟩

theorem ChangesOnly.setKey (h : ChangesOnly regs changed s t) (hc : Part.keys ∈ changed) (k : Nat) (b : Bool) :
    ChangesOnly regs changed s (t.setKey k b) :=
  ⟨h.1, fun p hp => (keeps_setKey (ne_of_mem_of_not_mem hc hp).symm).mpr (h.2 p hp)⟩

theorem ChangesOnly.setDT (h : ChangesOnly regs changed s t) (hc : Part.delayTimer ∈ changed) (v : Byte) :
    ChangesOnly regs changed s (t.setDT v) :=
  ⟨h.1, fun p hp => (keeps_setDT (ne_of_mem_of_not_mem hc hp).symm).mpr (h.2 p hp)⟩

theorem ChangesOnly.setST (h : ChangesOnly regs changed s t) (hc : Part.soundTimer ∈ changed) (v : Byte) :
    ChangesOnly regs changed s (t.setST v) :=
  ⟨h.1, fun p hp => (keeps_setST (ne_of_mem_of_not_mem hc hp).symm).mpr (h.2 p hp)⟩

theorem ChangesOnly.with_outputs (h : ChangesOnly regs changed s t) (hc : Part.outputs ∈ changed) (o : List Output) :
    ChangesOnly regs changed s { t with outputs := o } :=
  ⟨h.1, fun p hp => (keeps_with_outputs (ne_of_mem_of_not_mem hc hp).symm).mpr (h.2 p hp)⟩

end

end Sys2Proof.Machine
end

section
/-! The pause bit, the timer clock and the keys (R272, R275 to R277, R283, R286). -/

namespace Sys2Proof.Machine

section
variable {s : State}

theorem cpuStep_of_paused (h : s.paused = true) : cpuStep s = .next (s.noProgress .paused) := if_pos h

/-- The timer clock asks `running` alone, so it ticks whatever the pause bit (R272, R273). -/
theorem transition_timerClock_of_running (h : s.running = true) :
    transition .timerClock s = .next (timerTick s) := if_pos h

/-- Ending a Step without progress changes nothing of the core (R250). -/
theorem State.sameCore_noProgress (s : State) (o : StepOutcome) : SameCore s (s.noProgress o) := by
  simp [SameCore]

/-- A timer counts down as a natural number does: 0 stays 0 (R276). -/
theorem toNat_countDown (v : Byte) : (countDown v).toNat = v.toNat - 1 := by
  unfold countDown
  split
  · next h => rw [h]; rfl
  · next h =>
    have hne : v.toNat ≠ 0 := fun e => h (BitVec.eq_of_toNat_eq e)
    bv_omega

theorem timerTick_outputs_of_pos (h : s.ST.toNat > 0) : (timerTick s).outputs = [.toneTick] :=
  if_neg fun e => h.ne' (congrArg BitVec.toNat e)

theorem timerTick_outputs_of_zero (h : s.ST.toNat = 0) : (timerTick s).outputs = [] :=
  if_pos (BitVec.eq_of_toNat_eq h)

theorem changesOnly_timerTick (s : State) :
    ChangesOnly [] [.delayTimer, .soundTimer, .outcome, .outputs] s (timerTick s) :=
  have hfresh : ChangesOnly [] [.delayTimer, .soundTimer, .outcome, .outputs] s s.fresh :=
    State.changesOnly_fresh (by decide) (by decide)
  ((hfresh.setDT (by decide) (countDown s.DT)).setST (by decide) (countDown s.ST)).with_outputs (by decide)
    (timerTick s).outputs

theorem keyInput_of_lt {k : Nat} (h : k < 16) (b : Bool) : keyInput k b s = s.setKey k b :=
  if_pos (decide_eq_true h)

theorem keyInput_of_le {k : Nat} (h : 16 ≤ k) (b : Bool) : keyInput k b s = s.emit (.rejected .keyInputRange) :=
  if_neg fun hin => (of_decide_eq_true hin).not_ge h

/-- Press and Release are one operation, on the value the key takes (R286). -/
theorem transition_keyInput (k : Nat) (b : Bool) :
    transition (if b then .press k else .release k) s = .next (keyInput k b s.fresh) := by
  cases b <;> rfl

end

/-- Settles O14: SetPaused writes one bit, a paused Step is the first branch of Step, and neither the timer clock nor
Reset asks the bit. -/
theorem pauseGatesStepOnly : Obligations.PauseGatesStepOnly := fun s =>
  ⟨fun b => ⟨_, rfl, rfl, (State.changesOnly_fresh (by decide) (by decide)).setPaused (by decide) b, rfl⟩,
    fun h => ⟨_, cpuStep_of_paused h, s.sameCore_noProgress .paused, rfl, rfl⟩,
    transition_timerClock_of_running, resetCore_paused s⟩

/-- Settles O15: both timers are counted down as natural numbers, and the tone asks whether ST was 0 before. -/
theorem timerTickCountsBothTimersDown : Obligations.TimerTickCountsBothTimersDown := fun s =>
  ⟨toNat_countDown s.DT, toNat_countDown s.ST, timerTick_outputs_of_pos, timerTick_outputs_of_zero,
    changesOnly_timerTick s, rfl⟩

/-- Settles O17: the two clauses are the two sides of the check of the key index. -/
theorem keyInputSetsExactlyOneKey : Obligations.KeyInputSetsExactlyOneKey := by
  rintro s k b m rfl
  refine ⟨_, transition_keyInput k b, fun hin => ?_, fun hout => ?_⟩
  · rw [keyInput_of_lt hin]
    exact ⟨s.fresh.key_setKey k b hin, rfl, rfl,
      (State.changesOnly_fresh (by decide) (by decide)).setKey (by decide) k b⟩
  · rw [keyInput_of_le hout]
    exact ⟨s.sameCore_fresh_emit _, rfl⟩

end Sys2Proof.Machine
end

section
/-! What a Step puts out: CycleCompleted when it completes, at most a Diagnostic when it does not (R282, R284). -/

namespace Sys2Proof.Machine

theorem State.endExec_of_completed {t : State} (h : t.outcome = some .completed) (pc w : Word) :
    t.endExec pc w = t.emit (.cycleCompleted pc w) := if_pos h

theorem State.endExec_of_not_completed {t : State} (h : t.outcome ≠ some .completed) (pc w : Word) :
    t.endExec pc w = t := if_neg h

@[simp] theorem State.endExec_outcome (t : State) (pc w : Word) : (t.endExec pc w).outcome = t.outcome := by
  rw [State.endExec_eq]

/-- A Step completes and puts out its one CycleCompleted, or does not complete and puts out nothing or one
Diagnostic. -/
theorem cpuStep_outputs {s t : State} (h : cpuStep s = .next t) :
    (t.outcome = some .completed ∧ t.outputs = [.cycleCompleted s.pc (fetchWord s)]) ∨
    (t.outcome ≠ some .completed ∧ (t.outputs = [] ∨ ∃ d, t.outputs = [.diagnostic d])) := by
  obtain ⟨-, rfl⟩ | ⟨-, f, -, rfl⟩ | ⟨-, e, -, -, rfl⟩ | ⟨-, i, u, -, -, hexec, rfl⟩ := cpuStep_cases h
  · exact .inr ⟨by simp, .inl rfl⟩
  · exact .inr ⟨by simp, .inr ⟨_, rfl⟩⟩
  · exact .inr ⟨by simp, .inr ⟨_, rfl⟩⟩
  · obtain ⟨f, rfl⟩ | rfl | ⟨-, -, -, -, -, hout, hputs⟩ := exec_cases _ _ _ hexec
    · rw [State.endExec_of_not_completed (by simp)]
      exact .inr ⟨by simp, .inr ⟨_, rfl⟩⟩
    · rw [State.endExec_of_not_completed (by simp)]
      exact .inr ⟨by simp, .inl rfl⟩
    · rw [State.endExec_of_completed hout]
      exact .inl ⟨hout, by rw [State.emit_outputs, hputs]; rfl⟩

/-- Every ending of a Step sets what is put out, and none reads it. -/
theorem cpuStep_with_outputs (s : State) (o : List Output) : cpuStep { s with outputs := o } = cpuStep s := rfl

/-- Settles O13: the two ways of `cpuStep_outputs`, and a Step does not read what was put out before. -/
theorem cycleCompletedFiresExactlyOnCompletion : Obligations.CycleCompletedFiresExactlyOnCompletion := by
  refine fun s t h => ⟨fun hcomp => ?_, fun hcomp pc w hmem => ?_, fun o => (cpuStep_with_outputs s o).trans h⟩
  · obtain ⟨-, hputs⟩ | ⟨hnot, -⟩ := cpuStep_outputs h
    · exact hputs
    · exact absurd hcomp hnot
  · obtain ⟨hdone, -⟩ | ⟨-, hputs | ⟨d, hputs⟩⟩ := cpuStep_outputs h
    · exact hcomp hdone
    · simp [hputs] at hmem
    · simp [hputs] at hmem

end Sys2Proof.Machine
end

section
/-! The fault an instruction raises, as a function of the state before it. The report of a fault leaves unchanged
everything this function and the fetch read, so a faulted Step repeats (R250, R251). -/

namespace Sys2Proof.Machine

/-- The fault an instruction raises at a state, if any: an empty or a full stack, an address outside memory, a key index
that names no key, or a pixel without a cell (R250). -/
def instrFault (i : Instr) (s : State) : Option Fault :=
  match i with
  | .ret => if s.SP.val = 0 then some .stackUnderflow else none
  | .call _ => if s.SP.val = Config.stackDepth then some .stackOverflow else none
  | .drw x y n => (rangeFault s.indexAddr n.toNat).or (drawFault (s.drawCells x y n))
  | .skp x | .sknp x => keyFault (s.reg x)
  | .bcd _ => rangeFault s.indexAddr 3
  | .store x | .load x => rangeFault s.indexAddr (regCount x)
  | _ => none

section
variable {i : Instr} {s t : State} {f : Fault}

theorem exec_of_instrFault (h : instrFault i s = some f) : exec i s = .next (s.raise f) := by
  cases i with
  | ret | call nnn =>
    obtain ⟨hsp, hf⟩ := Option.ite_none_right_eq_some.mp h
    cases hf
    exact if_pos hsp
  | drw x y n =>
    obtain hrange | ⟨hrange, hdraw⟩ := Option.or_eq_some_iff.mp h
    · exact exec_drw_of_rangeFault hrange
    · exact exec_drw_of_drawFault hrange hdraw
  | skp x | sknp x | bcd x | store x | load x =>
    simp only [instrFault] at h
    simp only [exec, execSkp, execSknp, execBcd, execStore, execLoad, h]
  | _ => cases h

/-- With no fault to raise, an instruction leaves the outcome as it is or waits for a key (R233, R252). -/
theorem exec_outcome_of_instrFault_none (h : instrFault i s = none) (hexec : exec i s = .next t) :
    t.outcome = s.outcome ∨ t.outcome = some .keyWait := by
  cases i with
  | ret =>
    have hne : s.SP.val ≠ 0 := by simpa [instrFault] using h
    rw [exec_ret_of_nonempty hne] at hexec
    cases hexec
    exact .inl rfl
  | call nnn =>
    have hne : s.SP.val ≠ 16 := by simpa [instrFault] using h
    rw [exec_call_of_free nnn (Nat.lt_of_le_of_ne s.SP.is_le hne)] at hexec
    cases hexec
    exact .inl rfl
  | drw x y n =>
    obtain ⟨hrange, hdraw⟩ := Option.or_eq_none_iff.mp h
    rw [exec_drw_of_cells hrange hdraw] at hexec
    cases hexec
    exact .inl rfl
  | skp x | sknp x | bcd x | store x =>
    simp only [instrFault] at h
    simp only [exec, execSkp, execSknp, execBcd, execStore, h] at hexec
    cases hexec
    exact .inl rfl
  | load x =>
    simp only [instrFault] at h
    simp only [exec, execLoad, h] at hexec
    cases hexec
    rw [State.setRegsFrom_frame]
    exact .inl rfl
  | ldKey x =>
    simp only [exec, execLdKey] at hexec
    split at hexec <;> cases hexec
    · exact .inr rfl
    · exact .inl rfl
  | _ =>
    cases hexec
    exact .inl rfl

/-- An instruction that starts as completed and ends in a fault is one that raises this fault. -/
theorem instrFault_of_exec (hs : s.outcome = some .completed) (hexec : exec i s = .next t)
    (hout : t.outcome = some (.faulted f)) : instrFault i s = some f := by
  cases hg : instrFault i s with
  | some g =>
    rw [exec_of_instrFault hg] at hexec
    cases hexec
    cases hout
    rfl
  | none =>
    rcases exec_outcome_of_instrFault_none hg hexec with hkept | hwait
    · simp [hout, hs] at hkept
    · simp [hout] at hwait

/-- Neither the outcome, nor what is put out, nor the fault record decides what an instruction raises. -/
theorem instrFault_beginExec (i : Instr) (s : State) : instrFault i s.beginExec = instrFault i s := by
  cases i <;> rfl

theorem instrFault_raise (i : Instr) (s : State) (f : Fault) : instrFault i (s.raise f) = instrFault i s := by
  cases i <;> rfl

theorem runInstr_of_instrFault (h : instrFault i s = some f) : runInstr s i = .next (s.raise f) := by
  have hexec : exec i s.beginExec = .next (s.raise f) := exec_of_instrFault ((instrFault_beginExec i s).trans h)
  simp only [runInstr, hexec]
  rw [State.endExec_of_not_completed (by simp)]

theorem cpuStep_of_instrFault (hp : s.paused = false) (hf : fetchFault s = none)
    (hd : decodeWord (fetchWord s) = .ok i) (hi : instrFault i s = some f) : cpuStep s = .next (s.raise f) :=
  (cpuStep_of_decoded hp hf hd).trans (runInstr_of_instrFault hi)

/-- The fault record is a set: the same report once more adds nothing to it (R260). -/
theorem State.report_report (s : State) (w : Option Word) (f : Fault) : (s.report w f).report w f = s.report w f := by
  have hmem : (s.report w f).diagnosticOf w f ∈ (s.report w f).faultSet :=
    (s.mem_report_faultSet w f _).mpr (.inl rfl)
  conv_lhs => rw [State.report, if_pos hmem]
  rfl

theorem State.raise_raise (s : State) (f : Fault) : (s.raise f).raise f = s.raise f :=
  s.report_report (some (fetchWord s)) f

/-- A Step that ends in a fault is the report of it, and a Step from there is the same report once more. -/
theorem cpuStep_faulted (h : cpuStep s = .next t) (hout : t.outcome = some (.faulted f)) :
    ∃ w, t = s.report w f ∧ cpuStep t = .next t := by
  obtain ⟨-, rfl⟩ | ⟨hp, g, hf, rfl⟩ | ⟨hp, e, hf, hd, rfl⟩ | ⟨hp, i, u, hf, hd, hexec, rfl⟩ :=
    cpuStep_cases h
  · cases hout
  · obtain rfl : g = f := by simpa using hout
    refine ⟨none, rfl, ?_⟩
    rw [cpuStep_of_fetchFault (s := s.report none g) hp hf, State.report_report]
  · obtain rfl : .unknownOpcode = f := by simpa using hout
    refine ⟨some (fetchWord s), rfl, ?_⟩
    rw [cpuStep_of_unknownWord (s := s.raise .unknownOpcode) hp hf hd, State.raise_raise]
  · rw [State.endExec_outcome] at hout
    have hi : instrFault i s = some f :=
      (instrFault_beginExec i s).symm.trans (instrFault_of_exec s.beginExec_outcome hexec hout)
    have hraise := Host.Outcome.next.inj (h.symm.trans (cpuStep_of_instrFault hp hf hd hi))
    rw [hraise]
    refine ⟨some (fetchWord s), rfl, ?_⟩
    have hagain : instrFault i (s.raise f) = some f := (instrFault_raise i s f).trans hi
    rw [cpuStep_of_instrFault (s := s.raise f) hp hf hd hagain, State.raise_raise]

end

/-- Settles O11: the Step is the report of its fault, and repeats itself. -/
theorem faultedStepChangesNothingAndRepeats : Obligations.FaultedStepChangesNothingAndRepeats := by
  intro s t f h hout
  obtain ⟨w, rfl, hagain⟩ := cpuStep_faulted h hout
  exact ⟨s.sameCore_report w f, ⟨w, rfl, (s.mem_report_faultSet w f _).mpr (.inl rfl)⟩,
    _, hagain, by simp [SameCore], rfl, rfl⟩

end Sys2Proof.Machine
end

section
/-! Initialize, Start and Stop: what each writes, and the frame of a write of `running` (R303 to R305). -/

namespace Sys2Proof.Machine

theorem keeps_setRunning {p : Part} (hp : p ≠ .running) {s t : State} {b : Bool} :
    Keeps p s (t.setRunning b) ↔ Keeps p s t := by
  cases p with
  | running => exact absurd rfl hp
  | _ => exact Iff.rfl

theorem ChangesOnly.setRunning {regs : List Reg} {changed : List Part} {s t : State}
    (h : ChangesOnly regs changed s t) (hc : Part.running ∈ changed) (b : Bool) :
    ChangesOnly regs changed s (t.setRunning b) :=
  ⟨h.1, fun p hp => (keeps_setRunning (ne_of_mem_of_not_mem hc hp).symm).mpr (h.2 p hp)⟩

/-- The frame of Start and of Stop (R304, R305). -/
theorem State.changesOnly_fresh_setRunning (s : State) (b : Bool) :
    ChangesOnly [] [.running, .outcome, .outputs] s (s.fresh.setRunning b) :=
  (State.changesOnly_fresh (by decide) (by decide)).setRunning (by decide) b

theorem transition_initCore (image : List Byte) (s : State) :
    transition (.initCore image) s = .next (initializeCore image s) := rfl

/-- Initialize with an image that fits: the reset state with the image in memory and the clocks stopped (R69, R303). -/
theorem initializeCore_of_length_le {image : List Byte} (h : image.length ≤ 3584) (s : State) :
    initializeCore image s =
      { resetCore s with running := false, MEM := (resetCore s).MEM.writeList 0x200 image } := by
  rw [initializeCore, loadImage_of_length_le h]
  rfl

/-- Initialize with an image that does not fit: the reset state with the clocks stopped, and the report (R70, R303). -/
theorem initializeCore_of_lt_length {image : List Byte} (h : 3584 < image.length) (s : State) :
    initializeCore image s = { resetCore s with running := false, outputs := [.rejected .loadCapacity] } := by
  rw [initializeCore, loadImage_of_lt_length h]
  rfl

/-- Settles O19: the two clauses on Initialize are the two sides of the capacity, and Start and Stop are one write of
`running`. -/
theorem initializeStartAndStop : Obligations.InitializeStartAndStop := fun s image =>
  ⟨⟨_, transition_initCore image s, initializeCore_running s image,
      fun hfits => initializeCore_of_length_le hfits s, fun hlong => initializeCore_of_lt_length hlong s⟩,
    ⟨_, rfl, rfl, rfl, s.changesOnly_fresh_setRunning true⟩,
    _, rfl, rfl, rfl, s.changesOnly_fresh_setRunning false⟩

end Sys2Proof.Machine
end

section
/-! Decoding and encoding are inverse (R80 to R82, R85, R86). -/

namespace Sys2Proof

/-- The word of an instruction decodes to it: the fields of a packed word are the operands, and the group is chosen by
the fields of the row (R85, R86). -/
theorem decodeWord_encodeWord (i : Instr) : decodeWord (encodeWord i) = .ok i := by
  cases i with
  | cls | ret => rfl
  | jp nnn | call nnn | ldI nnn | jpV0 nnn => simp [encodeWord, decodeWord]
  | seImm x nn | sneImm x nn | ldImm x nn | addImm x nn | rnd x nn => simp [encodeWord, decodeWord]
  | seReg x y | sneReg x y | drw x y n => simp [encodeWord, decodeWord]
  | ldReg x y | orReg x y | andReg x y | xorReg x y | addReg x y | subReg x y | shr x y | subnReg x y | shl x y =>
    simp [encodeWord, decodeWord, decodeGroup8]
  | skp x | sknp x => simp [encodeWord, decodeWord, decodeGroupE]
  | ldFromDT x | ldKey x | ldDT x | ldST x | addI x | ldFont x | bcd x | store x | load x =>
    simp [encodeWord, decodeWord, decodeGroupF]

/-- Settles O4: the word by the fields of the packed word, the bytes because they make up the word. -/
theorem decodeOfEncodeIsTheInstruction : Obligations.DecodeOfEncodeIsTheInstruction := by
  refine fun i => ⟨decodeWord_encodeWord i, fun rest => ?_⟩
  change decode (hiByte (encodeWord i) :: loByte (encodeWord i) :: rest) = .ok (i, rest)
  rw [decode_bytes, wordOfBytes_hi_lo, decodeWord_encodeWord]
  rfl

section
variable {w : Word} {i : Instr} {t n : Nibble} {nn : Byte}

theorem packXYN_eq_of_toNat (hT : (fieldT w).toNat = t.toNat) (hN : (fieldN w).toNat = n.toNat) :
    packXYN t (fieldX w) (fieldY w) n = w := by
  rw [← BitVec.eq_of_toNat_eq hT, ← BitVec.eq_of_toNat_eq hN, packXYN_fields]

theorem packXNN_eq_of_toNat (hT : (fieldT w).toNat = t.toNat) (hNN : (fieldNN w).toNat = nn.toNat) :
    packXNN t (fieldX w) nn = w := by
  rw [← BitVec.eq_of_toNat_eq hT, ← BitVec.eq_of_toNat_eq hNN, packXNN_fields]

theorem packNNN_eq_of_toNat (hT : (fieldT w).toNat = t.toNat) : packNNN t (fieldNNN w) = w := by
  rw [← BitVec.eq_of_toNat_eq hT, packNNN_fields]

theorem encodeWord_of_decodeGroup0 (h : decodeGroup0 w = .ok i) : encodeWord i = w := by
  unfold decodeGroup0 at h
  split at h
  · next hw => cases h; exact hw.symm
  · split at h
    · next hw => cases h; exact hw.symm
    · cases h

theorem encodeWord_of_decodeGroup8 (hT : (fieldT w).toNat = 0x8) (h : decodeGroup8 w = .ok i) : encodeWord i = w := by
  unfold decodeGroup8 at h
  split at h <;> cases h <;> exact packXYN_eq_of_toNat hT ‹_›

theorem encodeWord_of_decodeGroupE (hT : (fieldT w).toNat = 0xE) (h : decodeGroupE w = .ok i) : encodeWord i = w := by
  unfold decodeGroupE at h
  split at h <;> cases h <;> exact packXNN_eq_of_toNat hT ‹_›

theorem encodeWord_of_decodeGroupF (hT : (fieldT w).toNat = 0xF) (h : decodeGroupF w = .ok i) : encodeWord i = w := by
  unfold decodeGroupF at h
  split at h <;> cases h <;> exact packXNN_eq_of_toNat hT ‹_›

/-- The other branches of the decoder name the top nibble; the last one is left with 0xF (R85). -/
theorem encodeWord_of_decodeWord (h : decodeWord w = .ok i) : encodeWord i = w := by
  unfold decodeWord at h
  split at h
  case h_1 => exact encodeWord_of_decodeGroup0 h
  case h_9 hT => exact encodeWord_of_decodeGroup8 hT h
  case h_15 hT => exact encodeWord_of_decodeGroupE hT h
  case h_16 =>
    have hlt := (fieldT w).isLt
    have hT : (fieldT w).toNat = 0xF := by simp only [imp_false] at *; omega
    exact encodeWord_of_decodeGroupF hT h
  case h_2 hT | h_3 hT | h_11 hT | h_12 hT => cases h; exact packNNN_eq_of_toNat hT
  case h_4 hT | h_5 hT | h_7 hT | h_8 hT | h_13 hT => cases h; exact packXNN_eq_of_toNat hT rfl
  case h_14 hT => cases h; exact packXYN_eq_of_toNat hT rfl
  case h_6 hT | h_10 hT =>
    split at h
    · next hN => cases h; exact packXYN_eq_of_toNat hT (congrArg _ hN)
    · cases h

end

/-- Settles O5, by the branches of the decoder. -/
theorem encodeOfDecodeIsTheWord : Obligations.EncodeOfDecodeIsTheWord := fun _ _ => encodeWord_of_decodeWord

/-- Settles O7: each word is the word of its instruction, and 0x5011 is evaluated. -/
theorem writtenOutWordsDecode : Obligations.WrittenOutWordsDecode :=
  ⟨decodeWord_encodeWord .ret, decodeWord_encodeWord (.call 0xABC#12), decodeWord_encodeWord (.sneImm 0xA#4 0x07#8),
    decodeWord_encodeWord (.sneReg 0x1#4 0x2#4), decodeWord_encodeWord (.subnReg 0xA#4 0xB#4),
    decodeWord_encodeWord (.shl 0x3#4 0xF#4), decodeWord_encodeWord (.rnd 0x3#4 0x0F#8),
    decodeWord_encodeWord (.store 0x3#4), decodeWord_encodeWord (.drw 0x1#4 0x2#4 0x5#4),
    decodeWord_encodeWord (.sknp 0x5#4), decodeWord_encodeWord (.addI 0x7#4), by decide⟩

end Sys2Proof
end

section
/-! CXNN (R162). -/

namespace Sys2Proof.Machine

theorem decodesAs_rnd : DecodesAs 0xC000#16 0xF000#16 fun w => .rnd (fieldX w) (fieldNN w) :=
  decodesAs_of_fieldT fun w hT => by simp [decodeWord, hT]

/-- Settles O45: CXNN is a write of VX and a count of the draw, and the bits are those of the conjunction. -/
theorem randomIsMaskedByNN : Obligations.RandomIsMaskedByNN := by
  refine ⟨decodesAs_rnd, fun x nn s => ⟨_, rfl, fun b => ?_, rfl, s.pcPlus_advance 2, ?_⟩⟩
  · rw [State.advance_reg, State.countDraw_reg, State.reg_setReg_same, BitVec.getLsbD_and]
  · exact (((changesOnly_refl _ _ s).setReg (by simp) _).countDraw (by simp)).advance 2

end Sys2Proof.Machine
end

section
/-! The opcode map decides which words are instructions: every row decodes to its own instructions, and the word of an
instruction matches its own row (R86, R87). -/

namespace Sys2Proof.Machine

/-- The family `MatchesItsRow` over all instructions. -/
theorem matchesItsRow : ∀ i : Instr, Laws.MatchesItsRow.Statement i
  | .cls => Laws.MatchesItsRow.cls
  | .ret => Laws.MatchesItsRow.ret
  | .jp nnn => Laws.MatchesItsRow.jp nnn
  | .call nnn => Laws.MatchesItsRow.call nnn
  | .seImm x nn => Laws.MatchesItsRow.seImm x nn
  | .sneImm x nn => Laws.MatchesItsRow.sneImm x nn
  | .seReg x y => Laws.MatchesItsRow.seReg x y
  | .ldImm x nn => Laws.MatchesItsRow.ldImm x nn
  | .addImm x nn => Laws.MatchesItsRow.addImm x nn
  | .ldReg x y => Laws.MatchesItsRow.ldReg x y
  | .orReg x y => Laws.MatchesItsRow.orReg x y
  | .andReg x y => Laws.MatchesItsRow.andReg x y
  | .xorReg x y => Laws.MatchesItsRow.xorReg x y
  | .addReg x y => Laws.MatchesItsRow.addReg x y
  | .subReg x y => Laws.MatchesItsRow.subReg x y
  | .shr x y => Laws.MatchesItsRow.shr x y
  | .subnReg x y => Laws.MatchesItsRow.subnReg x y
  | .shl x y => Laws.MatchesItsRow.shl x y
  | .sneReg x y => Laws.MatchesItsRow.sneReg x y
  | .ldI nnn => Laws.MatchesItsRow.ldI nnn
  | .jpV0 nnn => Laws.MatchesItsRow.jpV0 nnn
  | .rnd x nn => Laws.MatchesItsRow.rnd x nn
  | .drw x y n => Laws.MatchesItsRow.drw x y n
  | .skp x => Laws.MatchesItsRow.skp x
  | .sknp x => Laws.MatchesItsRow.sknp x
  | .ldFromDT x => Laws.MatchesItsRow.ldFromDT x
  | .ldKey x => Laws.MatchesItsRow.ldKey x
  | .ldDT x => Laws.MatchesItsRow.ldDT x
  | .ldST x => Laws.MatchesItsRow.ldST x
  | .addI x => Laws.MatchesItsRow.addI x
  | .ldFont x => Laws.MatchesItsRow.ldFont x
  | .bcd x => Laws.MatchesItsRow.bcd x
  | .store x => Laws.MatchesItsRow.store x
  | .load x => Laws.MatchesItsRow.load x

/-- Every word that matches a row of the map decodes to an instruction of that row. -/
def DecodesToRow (row : OpcodeRow) : Prop :=
  ∃ f, DecodesAs row.value row.mask f ∧ ∀ w, opcodeRow (f w) = row

theorem decodesToRow_of_mem : ∀ row ∈ opcodeTable, DecodesToRow row := by
  simp only [opcodeTable, opcodeRowsLow, opcodeRowsMid, opcodeRowsHigh, List.cons_append, List.nil_append,
    List.forall_mem_cons]
  exact ⟨⟨_, decodesAs_cls, fun _ => rfl⟩, ⟨_, decodesAs_ret, fun _ => rfl⟩, ⟨_, decodesAs_jp, fun _ => rfl⟩,
    ⟨_, decodesAs_call, fun _ => rfl⟩, ⟨_, decodesAs_seImm, fun _ => rfl⟩, ⟨_, decodesAs_sneImm, fun _ => rfl⟩,
    ⟨_, decodesAs_seReg, fun _ => rfl⟩, ⟨_, decodesAs_ldImm, fun _ => rfl⟩, ⟨_, decodesAs_addImm, fun _ => rfl⟩,
    ⟨_, decodesAs_ldReg, fun _ => rfl⟩, ⟨_, decodesAs_orReg, fun _ => rfl⟩, ⟨_, decodesAs_andReg, fun _ => rfl⟩,
    ⟨_, decodesAs_xorReg, fun _ => rfl⟩, ⟨_, decodesAs_addReg, fun _ => rfl⟩, ⟨_, decodesAs_subReg, fun _ => rfl⟩,
    ⟨_, decodesAs_shr, fun _ => rfl⟩, ⟨_, decodesAs_subnReg, fun _ => rfl⟩, ⟨_, decodesAs_shl, fun _ => rfl⟩,
    ⟨_, decodesAs_sneReg, fun _ => rfl⟩, ⟨_, decodesAs_ldI, fun _ => rfl⟩, ⟨_, decodesAs_jpV0, fun _ => rfl⟩,
    ⟨_, decodesAs_rnd, fun _ => rfl⟩, ⟨_, decodesAs_drw, fun _ => rfl⟩, ⟨_, decodesAs_skp, fun _ => rfl⟩,
    ⟨_, decodesAs_sknp, fun _ => rfl⟩, ⟨_, decodesAs_ldFromDT, fun _ => rfl⟩, ⟨_, decodesAs_ldKey, fun _ => rfl⟩,
    ⟨_, decodesAs_ldDT, fun _ => rfl⟩, ⟨_, decodesAs_ldST, fun _ => rfl⟩, ⟨_, decodesAs_addI, fun _ => rfl⟩,
    ⟨_, decodesAs_ldFont, fun _ => rfl⟩, ⟨_, decodesAs_bcd, fun _ => rfl⟩, ⟨_, decodesAs_store, fun _ => rfl⟩,
    ⟨_, decodesAs_load, fun _ => rfl⟩, List.forall_mem_nil _⟩

/-- A word that matches a row decodes to an instruction whose own row it is (R86). -/
theorem decodeWord_of_matchesWord {row : OpcodeRow} {w : Word} (hrow : row ∈ opcodeTable)
    (hw : row.matchesWord w = true) : ∃ i, decodeWord w = .ok i ∧ opcodeRow i = row := by
  obtain ⟨f, hdecodes, hf⟩ := decodesToRow_of_mem row hrow
  exact ⟨f w, hdecodes w (eq_of_beq hw), hf w⟩

/-- The row of a decoded instruction is in the map and matches the word. -/
theorem opcodeRow_of_decodeWord {w : Word} {i : Instr} (h : decodeWord w = .ok i) :
    opcodeRow i ∈ opcodeTable ∧ (opcodeRow i).matchesWord w = true := by
  obtain ⟨hmask, hmem⟩ := matchesItsRow i
  rw [encodeWord_of_decodeWord h] at hmask
  exact ⟨hmem, beq_iff_eq.mpr hmask⟩

/-- Settles O6: two rows that match a word are both the own row of the one instruction it decodes to. -/
theorem wordsAreInstructionsExactlyByTheMap : Obligations.WordsAreInstructionsExactlyByTheMap := by
  refine fun w => ⟨⟨?_, ?_⟩, fun i => opcodeRow_of_decodeWord, fun a ha b hb hwa hwb => ?_⟩
  · rintro ⟨i, hi⟩
    exact ⟨opcodeRow i, opcodeRow_of_decodeWord hi⟩
  · rintro ⟨row, hrow, hw⟩
    obtain ⟨i, hi, -⟩ := decodeWord_of_matchesWord hrow hw
    exact ⟨i, hi⟩
  · obtain ⟨i, hi, rfl⟩ := decodeWord_of_matchesWord ha hwa
    obtain ⟨j, hj, rfl⟩ := decodeWord_of_matchesWord hb hwb
    rw [Except.ok.inj (hi.symm.trans hj)]

end Sys2Proof.Machine
end

section
/-! The invariant of the model: it holds at reset and every step keeps it (R34, R68, R260, R282). -/

namespace Sys2Proof.Machine

section
variable {s t : State}

/-- The invariant speaks of memory, the two records, the outcome and what is put out, and of nothing else. -/
theorem State.Inv.of_eq (h : s.Inv) (hmem : t.MEM = s.MEM) (hset : t.faultSet = s.faultSet)
    (hout : t.outcome = s.outcome) (hlow : t.lowWrites = s.lowWrites) (hputs : t.outputs = s.outputs) : t.Inv where
  memory := hmem ▸ h.memory
  faultsOnce := hset ▸ h.faultsOnce
  faultKept := by rw [hset, hout]; exact h.faultKept
  lowOnly := hlow ▸ h.lowOnly
  completedFires := by rw [hputs, hout]; exact h.completedFires

/-- A transition that is no Step has no outcome, and must not put CycleCompleted out. -/
theorem State.Inv.of_outcome_none (h : s.Inv) (hmem : t.MEM.wf = true) (hset : t.faultSet = s.faultSet)
    (hlow : t.lowWrites = s.lowWrites) (hout : t.outcome = none)
    (hputs : ∀ pc w, Output.cycleCompleted pc w ∉ t.outputs) : t.Inv where
  memory := hmem
  faultsOnce := hset ▸ h.faultsOnce
  faultKept := by simp [hout]
  lowOnly := hlow ▸ h.lowOnly
  completedFires := by simp [hout, hputs]

/-- The start of a transition forgets the outcome and what was put out (log entry 4). -/
theorem State.Inv.fresh (h : s.Inv) : s.fresh.Inv :=
  h.of_outcome_none h.memory rfl rfl rfl (by simp)

theorem State.Inv.timerTick (h : s.Inv) : (timerTick s).Inv := by
  refine h.of_outcome_none h.memory rfl rfl rfl fun pc w => ?_
  change Output.cycleCompleted pc w ∉ if s.ST = 0#8 then [] else [.toneTick]
  split <;> simp

theorem State.Inv.resetCore (h : s.Inv) : (resetCore s).Inv :=
  h.of_outcome_none rfl rfl rfl rfl (by simp)

theorem State.Inv.with_MEM (h : s.Inv) {m : Memory} (hm : m.wf = true) : ({ s with MEM := m } : State).Inv :=
  ⟨hm, h.faultsOnce, h.faultKept, h.lowOnly, h.completedFires⟩

/-- What a host operation puts out is no CycleCompleted. -/
theorem State.Inv.emit (h : s.Inv) {o : Output} (ho : ∀ pc w, Output.cycleCompleted pc w ≠ o) : (s.emit o).Inv where
  memory := h.memory
  faultsOnce := h.faultsOnce
  faultKept := h.faultKept
  lowOnly := h.lowOnly
  completedFires := by simpa [ho] using h.completedFires

/-- An image that fits lies inside memory (R69). -/
theorem State.Inv.loadImage (h : s.Inv) (image : List Byte) : (loadImage image s).Inv := by
  rcases le_or_gt image.length 3584 with hfits | hlong
  · rw [loadImage_of_length_le hfits]
    exact h.with_MEM (Memory.wf_writeList image (Nat.add_le_add_left hfits 0x200) h.memory)
  · rw [loadImage_of_lt_length hlong]
    exact h.emit (by simp)

theorem State.Inv.keyInput (h : s.Inv) (k : Nat) (b : Bool) : (keyInput k b s).Inv := by
  rcases Nat.lt_or_ge k 16 with hin | hout
  · rw [keyInput_of_lt hin]
    exact h.of_eq rfl rfl rfl rfl rfl
  · rw [keyInput_of_le hout]
    exact h.emit (by simp)

/-! A Step. -/

theorem State.nodup_report_faultSet (h : s.faultSet.Nodup) (w : Option Word) (f : Fault) :
    (s.report w f).faultSet.Nodup := by
  simp only [State.report]
  split
  · exact h
  · next hmem => exact h.append (List.nodup_singleton _) (List.disjoint_singleton.mpr hmem)

/-- A Step stores nothing, or what its instruction stores: one run of bytes inside memory, with its LowWrites. -/
theorem cpuStep_mem (h : cpuStep s = .next t) :
    (t.MEM = s.MEM ∧ t.lowWrites = s.lowWrites) ∨
    ∃ b l, b + l.length ≤ Config.memSize ∧ t.MEM = s.MEM.writeList b l ∧
      t.lowWrites = s.lowWrites ++ lowWritesOf s.pc b l.length := by
  obtain ⟨-, rfl⟩ | ⟨-, f, -, rfl⟩ | ⟨-, e, -, -, rfl⟩ | ⟨-, i, u, -, -, hexec, rfl⟩ := cpuStep_cases h
  · exact .inl ⟨rfl, rfl⟩
  · exact .inl ⟨rfl, rfl⟩
  · exact .inl ⟨rfl, rfl⟩
  · rw [State.endExec_eq]
    exact exec_mem i s.beginExec u hexec

/-- Each clause from the lemma on what a Step does to its part. -/
theorem State.Inv.cpuStep (h : s.Inv) (hstep : cpuStep s = .next t) : t.Inv where
  memory := by
    obtain ⟨hmem, -⟩ | ⟨b, l, hrange, hmem, -⟩ := cpuStep_mem hstep <;> rw [hmem]
    · exact h.memory
    · exact Memory.wf_writeList l hrange h.memory
  faultsOnce := by
    obtain ⟨w, f, rfl⟩ | ⟨hset, -⟩ := cpuStep_faultSet hstep
    · exact State.nodup_report_faultSet h.faultsOnce w f
    · exact hset ▸ h.faultsOnce
  faultKept := by
    intro g hg
    obtain ⟨w, f, rfl⟩ | ⟨-, hnone⟩ := cpuStep_faultSet hstep
    · obtain rfl : f = g := by simpa using hg
      exact ⟨_, (s.mem_report_faultSet w f _).mpr (.inl rfl), rfl, rfl⟩
    · exact absurd hg (hnone g)
  lowOnly := by
    intro e he
    obtain ⟨-, hlow⟩ | ⟨b, l, -, -, hlow⟩ := cpuStep_mem hstep <;> rw [hlow] at he
    · exact h.lowOnly e he
    · obtain hold | hnew := List.mem_append.mp he
      · exact h.lowOnly e hold
      · obtain ⟨-, -, -, hlt⟩ := mem_lowWritesOf.mp hnew
        exact hlt
  completedFires := by
    obtain ⟨hdone, hputs⟩ | ⟨hnot, hputs | ⟨d, hputs⟩⟩ := cpuStep_outputs hstep
    · simp [hdone, hputs]
    · simp [hnot, hputs]
    · simp [hnot, hputs]

theorem State.Inv.transition {m : Move} (h : s.Inv) (hmove : transition m s = .next t) : t.Inv := by
  cases m with
  | instructionClock =>
    simp only [Machine.transition] at hmove
    split at hmove
    · exact h.cpuStep hmove
    · cases hmove; exact h.fresh
  | timerClock =>
    simp only [Machine.transition] at hmove
    split at hmove <;> cases hmove
    · exact h.timerTick
    · exact h.fresh
  | reset => cases hmove; exact h.resetCore
  | load image =>
    simp only [Machine.transition] at hmove
    split at hmove <;> cases hmove
    exact h.fresh.loadImage image
  | initCore image => cases hmove; exact (h.resetCore.loadImage image).of_eq rfl rfl rfl rfl rfl
  | start | stop | setPaused b => cases hmove; exact h.fresh.of_eq rfl rfl rfl rfl rfl
  | press k | release k => cases hmove; exact h.fresh.keyInput k _
  | readFramebuffer => cases hmove; exact h.fresh.emit (by simp)

end

/-- Settles O3: a step is a transition of a state that differs in the agenda alone. -/
theorem everyStepKeepsTheModelInvariant : Obligations.EveryStepKeepsTheModelInvariant := by
  intro s t h hstep
  obtain ⟨-, hmove⟩ | ⟨m, rest, -, hmove⟩ := step_cases hstep
  · exact h.transition hmove
  · have hrest : ({ s with agenda := rest } : State).Inv := h.of_eq rfl rfl rfl rfl rfl
    exact hrest.transition hmove

/-- Settles O2: memory lists nothing at reset, both records are empty, and nothing has been put out. -/
theorem resetMeetsTheModelInvariant : Obligations.ResetMeetsTheModelInvariant where
  memory := rfl
  faultsOnce := List.nodup_nil
  faultKept := fun _ h => nomatch h
  lowOnly := fun _ h => nomatch h
  completedFires := by simp [State.reset]

end Sys2Proof.Machine
end

section
/-! The scheduler: what a step answers, scheduled or not, and what a stopped core does (R251 to R253, R260, R271, R273,
R289, R305). -/

namespace Sys2Proof.Machine

/-! What a Step, a transition and a step answer. -/

section
variable {s : State} {m : Move} {rest : List Move}

theorem step_of_empty (h : s.agenda = []) : step s = transition .instructionClock s := by
  rw [step, nextTransition, h]

theorem step_of_scheduled (h : s.agenda = m :: rest) : step s = transition m { s with agenda := rest } := by
  rw [step, nextTransition, h]

theorem transition_instructionClock_of_running (h : s.running = true) :
    transition .instructionClock s = cpuStep s := if_pos h

/-- While the clocks are stopped a fire of either changes nothing but what describes the transition (log entry 2). -/
theorem transition_clock_of_stopped (hm : m = .instructionClock ∨ m = .timerClock) (h : s.running = false) :
    transition m s = .next s.fresh := by
  rcases hm with rfl | rfl <;> exact if_neg (Bool.eq_false_iff.mp h)

theorem runInstr_answers_next (i : Instr) (s : State) :
    ∃ t, exec i s.beginExec = .next t ∧ runInstr s i = .next (t.endExec s.pc (fetchWord s)) := by
  obtain ⟨t, ht⟩ := exec_answers_next i s.beginExec
  exact ⟨t, ht, by simp only [runInstr, ht]⟩

theorem cpuStep_answers_next (s : State) : ∃ t, cpuStep s = .next t := by
  cases hp : s.paused with
  | true => exact ⟨_, cpuStep_of_paused hp⟩
  | false =>
    cases hf : fetchFault s with
    | some f => exact ⟨_, cpuStep_of_fetchFault hp hf⟩
    | none =>
      cases hd : decodeWord (fetchWord s) with
      | error e => exact ⟨_, cpuStep_of_unknownWord hp hf hd⟩
      | ok i =>
        obtain ⟨t, -, ht⟩ := runInstr_answers_next i s
        exact ⟨_, (cpuStep_of_decoded hp hf hd).trans ht⟩

/-- The one transition that is refused is a Load while the clocks run (R71; log entry 11). -/
theorem transition_answers (m : Move) (s : State) :
    (∃ t, transition m s = .next t) ∨
    (s.running = true ∧ ∃ image, m = .load image ∧ transition m s = .refused .loadWhileRunning) := by
  cases m with
  | instructionClock =>
    cases hr : s.running with
    | true =>
      obtain ⟨t, ht⟩ := cpuStep_answers_next s
      exact .inl ⟨t, (transition_instructionClock_of_running hr).trans ht⟩
    | false => exact .inl ⟨_, transition_clock_of_stopped (.inl rfl) hr⟩
  | timerClock =>
    cases hr : s.running with
    | true => exact .inl ⟨_, transition_timerClock_of_running hr⟩
    | false => exact .inl ⟨_, transition_clock_of_stopped (.inr rfl) hr⟩
  | load image =>
    cases hr : s.running with
    | true => exact .inr ⟨rfl, image, rfl, if_pos hr⟩
    | false => exact .inl ⟨_, transition_load_of_stopped hr image⟩
  | _ => exact .inl ⟨_, rfl⟩

end

/-- Settles O12: a step is a transition, and only a Load is ever refused. -/
theorem noOutcomeStopsTheCore : Obligations.NoOutcomeStopsTheCore := by
  refine ⟨cpuStep_answers_next, fun s => ?_⟩
  cases ha : s.agenda with
  | nil =>
    rw [step_of_empty ha]
    obtain hnext | ⟨-, image, hload, -⟩ := transition_answers .instructionClock s
    · exact .inl hnext
    · cases hload
  | cons m rest =>
    rw [step_of_scheduled ha]
    obtain hnext | ⟨hr, image, rfl, hrefused⟩ := transition_answers m { s with agenda := rest }
    · exact .inl hnext
    · exact .inr ⟨hr, image, rest, rfl, hrefused⟩

/-- Settles O8: the step is one Step, and the Step is the decoded instruction. -/
theorem stepRunsTheDecodedInstruction : Obligations.StepRunsTheDecodedInstruction := by
  intro s i rest ha hr hp hpc hd _
  have hd : decodeWord (fetchWord s) = .ok i := by
    rw [decode_fetchBytes] at hd
    cases hw : decodeWord (fetchWord s) <;> rw [hw] at hd <;> cases hd
    rfl
  obtain ⟨t, hexec, hrun⟩ := runInstr_answers_next i s
  refine ⟨t, hexec, ?_⟩
  calc step s = cpuStep s := (step_of_empty ha).trans (transition_instructionClock_of_running hr)
    _ = runInstr s i := cpuStep_of_decoded hp (fetchFault_of_lt hpc) hd
    _ = .next (t.endExec s.pc (fetchWord s)) := hrun

/-- Settles O10: an unknown word is the report of UnknownOpcode. -/
theorem unknownWordIsReportedAndNotPassed : Obligations.UnknownWordIsReportedAndNotPassed := fun s _ hp hpc hd =>
  ⟨_, cpuStep_of_unknownWord hp (fetchFault_of_lt hpc) hd, s.sameCore_report _ _, rfl, rfl⟩

theorem State.sameCore_fresh (s : State) : SameCore s s.fresh := by
  simp [SameCore]

/-- Settles O16: a fire of either clock, scheduled or not, on the two values of `running`. -/
theorem clocksFireOnlyWhileRunning : Obligations.ClocksFireOnlyWhileRunning := by
  refine fun s rest => ⟨fun hr => ⟨?_, ?_, ?_⟩, fun hr => ⟨?_, fun m hm => ?_⟩⟩
  · exact transition_instructionClock_of_running (s := { s with agenda := [] }) hr
  · exact transition_instructionClock_of_running (s := { s with agenda := rest }) hr
  · exact transition_timerClock_of_running (s := { s with agenda := rest }) hr
  · exact ⟨_, transition_clock_of_stopped (s := { s with agenda := [] }) (.inl rfl) hr, s.sameCore_fresh, rfl, rfl⟩
  · exact ⟨_, transition_clock_of_stopped (s := { s with agenda := rest }) hm hr, s.sameCore_fresh, rfl, rfl⟩

/-- Settles O20: the copy put out is the framebuffer itself. -/
theorem framebufferReadIsACopy : Obligations.FramebufferReadIsACopy := fun s =>
  ⟨_, s.FB, rfl, s.sameCore_fresh_emit _, rfl, fun _ _ => rfl⟩

/-! Runs: a stopped core stays as it is, and a recorded fault stays recorded. -/

/-- The clocks are stopped and no host operation is scheduled. -/
def Idle (s : State) : Prop :=
  s.running = false ∧ ∀ m ∈ s.agenda, m = Move.instructionClock ∨ m = .timerClock

/-- What the statement on stopped clocks keeps of a state: the core, both records and the count of draws. -/
def SameCoreAndRecords (s t : State) : Prop :=
  SameCore s t ∧ t.faultSet = s.faultSet ∧ t.lowWrites = s.lowWrites ∧ t.draws = s.draws

section
variable {s t u : State}

/-- A step of an idle core uses a scheduled fire up, if there is one, and does nothing else (log entry 2). -/
theorem step_of_idle (h : Idle s) (hstep : step s = .next t) :
    ∃ rest, t = ({ s with agenda := rest } : State).fresh ∧ ∀ m ∈ rest, m ∈ s.agenda := by
  obtain ⟨hr, hclocks⟩ := h
  obtain ⟨-, hmove⟩ | ⟨m, rest, ha, hmove⟩ := step_cases hstep
  · rw [transition_clock_of_stopped (.inl rfl) hr] at hmove
    cases hmove
    exact ⟨s.agenda, rfl, fun _ hm => hm⟩
  · have hm : m = .instructionClock ∨ m = .timerClock := hclocks m (by simp [ha])
    rw [transition_clock_of_stopped (s := { s with agenda := rest }) hm hr] at hmove
    cases hmove
    exact ⟨rest, rfl, fun m' hm' => by simp [ha, hm']⟩

theorem idle_step (h : Idle u) (hsame : SameCoreAndRecords s u) (hstep : step u = .next t) :
    Idle t ∧ SameCoreAndRecords s t := by
  obtain ⟨rest, rfl, hsub⟩ := step_of_idle h hstep
  exact ⟨⟨h.1, fun m hm => h.2 m (hsub m hm)⟩, hsame⟩

end

/-- Settles O59: an idle core stays idle and keeps every piece of state, step by step. -/
theorem stoppedClocksKeepEveryPieceOfState : Obligations.StoppedClocksKeepEveryPieceOfState := by
  intro n s t hr hclocks hreach
  have hstart : Idle s ∧ SameCoreAndRecords s s := ⟨⟨hr, hclocks⟩, by simp [SameCoreAndRecords, SameCore]⟩
  exact (reaches_keeps (P := fun u => Idle u ∧ SameCoreAndRecords s u)
    (fun _ _ ⟨hidle, hsame⟩ hstep => idle_step hidle hsame hstep) hstart hreach).2

section
variable {s t : State} {m : Move}

/-- The fault record after a transition: it grows by the report of a fault, and is kept by one that ends in none. -/
theorem transition_report_or_kept (h : transition m s = .next t) :
    (∃ w f, t = s.report w f) ∨ (t.faultSet = s.faultSet ∧ ∀ f, t.outcome ≠ some (.faulted f)) := by
  obtain ⟨-, -, hcpu⟩ | ⟨hset, hout⟩ := transition_faultSet h
  · exact cpuStep_faultSet hcpu
  · exact .inr ⟨hset, by simp [hout]⟩

theorem step_report_or_kept (h : step s = .next t) :
    (∃ w f, t.faultSet = (s.report w f).faultSet ∧ t.outcome = some (.faulted f)) ∨
    (t.faultSet = s.faultSet ∧ ∀ f, t.outcome ≠ some (.faulted f)) := by
  obtain ⟨-, hmove⟩ | ⟨m, rest, -, hmove⟩ := step_cases h
  all_goals
    obtain ⟨w, f, rfl⟩ | hkept := transition_report_or_kept hmove
    · exact .inl ⟨w, f, rfl, rfl⟩
    · exact .inr hkept

/-- No step clears a recorded fault (R260). -/
theorem step_keeps_faults (h : step s = .next t) {d : Diagnostic} (hd : d ∈ s.faultSet) : d ∈ t.faultSet := by
  obtain ⟨w, f, hset, -⟩ | ⟨hset, -⟩ := step_report_or_kept h <;> rw [hset]
  · exact (s.mem_report_faultSet w f d).mpr (.inr hd)
  · exact hd

/-- A step that ends in a fault records it. -/
theorem step_records_fault (h : step s = .next t) {f : Fault} (hout : t.outcome = some (.faulted f)) :
    ∃ d ∈ t.faultSet, d.code = f.code ∧ d.info = f.info := by
  obtain ⟨w, g, hset, hg⟩ | ⟨-, hnone⟩ := step_report_or_kept h
  · obtain rfl : f = g := by simpa [hout] using hg
    exact ⟨s.diagnosticOf w f, hset ▸ (s.mem_report_faultSet w f _).mpr (.inl rfl), rfl, rfl⟩
  · exact absurd hout (hnone f)

end

/-- Settles O60: the step that faults records the fault, and the steps that follow keep it. -/
theorem faultedRunIsNeverFinal : Obligations.FaultedRunIsNeverFinal := by
  refine ⟨fun s t h d hd => step_keeps_faults h hd, fun n s u t f h hout hreach => ?_⟩
  obtain ⟨d, hd, hcode, hinfo⟩ := step_records_fault h hout
  have hkept : d ∈ t.faultSet :=
    reaches_keeps (P := fun v => d ∈ v.faultSet) (fun _ _ hv hstep => step_keeps_faults hstep hv) hd hreach
  exact ⟨⟨d, hkept, hcode, hinfo⟩, fun hfinal => List.ne_nil_of_mem hkept hfinal⟩

end Sys2Proof.Machine
end

section
/-! What an instruction stores: the record of its low writes, and the word a later fetch reads (R68, R74, R311). -/

namespace Sys2Proof.Machine

/-- Settles O26: an instruction stores nothing or one run of bytes, so a byte that changed lies in the run. -/
theorem everyLowWriteIsRecorded : Obligations.EveryLowWriteIsRecorded := by
  intro i s t hexec
  obtain ⟨hmem, hlow⟩ | ⟨b, l, -, hmem, hlow⟩ := exec_mem i s t hexec
  · refine ⟨fun a _ hne => absurd ?_ hne, [], by simpa using hlow, by simp⟩
    rw [State.byte, hmem, State.byte]
  · refine ⟨fun a ha hne => ?_, _, hlow, fun e he => ?_⟩
    · have hin : b ≤ a ∧ a < b + l.length := by
        by_contra hout
        exact hne (by rw [State.byte, hmem, Memory.read_writeList, if_neg hout, State.byte])
      rw [hlow]
      exact List.mem_append_right _ (mem_lowWritesOf.mpr ⟨rfl, hin.1, hin.2, ha⟩)
    · obtain ⟨hpc, -, -, hlt⟩ := mem_lowWritesOf.mp he
      exact ⟨hpc, hlt⟩

/-- Settles O27: the two bytes at the old I are those FX55 stored from V0 and V1. -/
theorem storedWordIsFetched : Obligations.StoredWordIsFetched := by
  intro x s t u hx hin hexec hmem hpc
  obtain ⟨v, hv, hstored, -⟩ := (registersAreStoredAndIndexAdvances.2 x s).2 hin
  obtain rfl : t = v := Host.Outcome.next.inj (hexec.symm.trans hv)
  have hbyte : ∀ r : Reg, r.toNat ≤ x.toNat → u.byte (u.pc.toNat + r.toNat) = s.reg r := by
    intro r hr
    rw [State.byte, hmem, hpc]
    exact hstored r hr
  have hlast : u.pc.toNat + 1 < 0x1000 := by
    rw [hpc]
    exact (Nat.add_le_add_left hx _).trans_lt hin
  exact ⟨fetchFault_of_lt hlast, congrArg₂ wordOfBytes (hbyte 0#4 (Nat.zero_le _)) (hbyte 1#4 hx)⟩

end Sys2Proof.Machine
end

section
/-! The cells of a draw are distinct and on the screen (R212, R213). -/

namespace Sys2Proof.Machine

/-- A draw of at most 15 rows that starts on the screen passes the last cell once at most (R212). -/
theorem flatIndex_lt {x y : Byte} {r c : Nat} (hx : x.toNat ≤ 63) (hy : y.toNat ≤ 31) (hr : r < 15) (hc : c < 8) :
    flatIndex x y r c < 2048 := by
  simp only [flatIndex, Config.fbCells, Config.fbColumns]
  split <;> omega

/-- Settles O29: the distinctness is that of the cells of a draw, the bound that of each pixel. -/
theorem spriteCellsAreDistinctAndLandOnScreen : Obligations.SpriteCellsAreDistinctAndLandOnScreen := by
  refine fun x y rows hlen => ⟨nodup_spriteCells (by omega), fun hx hy p hp => ?_⟩
  obtain ⟨r, c, hr, hc, -, rfl⟩ := mem_spriteCells.mp hp
  exact flatIndex_lt hx hy (by omega) hc

end Sys2Proof.Machine
end

section
/-! Two register writes, and the two orders of the flag write (R150). -/

namespace Sys2Proof.Machine

theorem State.setReg_setReg_comm (s : State) {q r : Reg} (h : q ≠ r) (v w : Byte) :
    (s.setReg q v).setReg r w = (s.setReg r w).setReg q v := by
  have hne : q.toNat ≠ r.toNat := fun e => h (reg_ext_toNat.mp e)
  simp only [State.setReg, Vector.set_comm v w hne]

theorem State.setReg_setReg_same (s : State) (r : Reg) (v w : Byte) : (s.setReg r v).setReg r w = s.setReg r w := by
  simp only [State.setReg, Vector.set_set]

/-- The two flag orders agree on a write that neither reads VF nor undoes it. -/
theorem withFlag_flagFirst_eq {flag : Byte} {write : State → State} {s : State}
    (h : write (s.setReg VF flag) = (write s).setReg VF flag) :
    withFlag .flagFirst flag write s = withFlag .flagLast flag write s := h

/-- Settles O28: with X and Y other than VF the result reads the same operands after the flag as before it, and is
written to another register, or to I. -/
theorem flagOrdersAgreeAwayFromVF : Obligations.FlagOrdersAgreeAwayFromVF := by
  intro x y s hx hy
  refine ⟨withFlag_flagFirst_eq ?_, withFlag_flagFirst_eq ?_, withFlag_flagFirst_eq ?_, withFlag_flagFirst_eq ?_⟩
  all_goals simp only [State.reg_setReg_of_ne _ hx, State.reg_setReg_of_ne _ hy, State.setReg_I]
  · exact s.setReg_setReg_comm hx.symm _ _
  · exact s.setReg_setReg_comm hx.symm _ _
  · exact s.setReg_setReg_comm hx.symm _ _
  · rfl

end Sys2Proof.Machine
end

section
/-! An instruction as a function of the state: the fault it raises, or its effect (R250, R252). -/

namespace Sys2Proof.Machine

/-- The state an instruction leaves that raises no fault: that of its rule, and the state as it was, in KeyWait, for
FX0A with no key pressed. -/
def effect (i : Instr) (s : State) : State :=
  match i with
  | .cls => s.clearFB.advance 2
  | .ret => s.pop.setPc (s.top + 2#16)
  | .jp nnn => s.setPc (addrWord nnn)
  | .call nnn => (s.push s.pc).setPc (addrWord nnn)
  | .seImm x nn => s.skipIf (s.reg x == nn)
  | .sneImm x nn => s.skipIf (s.reg x != nn)
  | .seReg x y => s.skipIf (s.reg x == s.reg y)
  | .ldImm x nn => (s.setReg x nn).advance 2
  | .addImm x nn => (s.setReg x (s.reg x + nn)).advance 2
  | .ldReg x y => (s.setReg x (s.reg y)).advance 2
  | .orReg x y => (s.setReg x (s.reg x ||| s.reg y)).advance 2
  | .andReg x y => (s.setReg x (s.reg x &&& s.reg y)).advance 2
  | .xorReg x y => (s.setReg x (s.reg x ^^^ s.reg y)).advance 2
  | .addReg x y => ((s.setReg x (s.reg x + s.reg y)).setReg VF (carryFlag (s.reg x) (s.reg y))).advance 2
  | .subReg x y => ((s.setReg x (s.reg x - s.reg y)).setReg VF (noBorrowFlag (s.reg x) (s.reg y))).advance 2
  | .shr x _ => ((s.setReg x (s.reg x >>> 1)).setReg VF (shiftRightFlag (s.reg x))).advance 2
  | .subnReg x y => ((s.setReg x (s.reg y - s.reg x)).setReg VF (noBorrowFlag (s.reg y) (s.reg x))).advance 2
  | .shl x _ => ((s.setReg x (s.reg x <<< 1)).setReg VF (shiftLeftFlag (s.reg x))).advance 2
  | .sneReg x y => s.skipIf (s.reg x != s.reg y)
  | .ldI nnn => (s.setI (addrWord nnn)).advance 2
  | .jpV0 nnn => s.setPc (addrWord nnn + byteWord (s.reg 0#4))
  | .rnd x nn => (s.setReg x (Config.randomByte s.draws &&& nn)).countDraw.advance 2
  | .drw x y n =>
    ((s.toggleCells (s.drawCells x y n)).setReg VF (collisionFlag s (s.drawCells x y n))).advance 2
  | .skp x => s.skipIf (s.key (s.reg x).toNat)
  | .sknp x => s.skipIf (!s.key (s.reg x).toNat)
  | .ldFromDT x => (s.setReg x s.DT).advance 2
  | .ldKey x =>
    if s.pressedKeys = [] then s.noProgress .keyWait
    else (s.setReg x (BitVec.ofNat 8 (selectKey s.draws s.pressedKeys))).countDraw.advance 2
  | .ldDT x => (s.setDT (s.reg x)).advance 2
  | .ldST x => (s.setST (s.reg x)).advance 2
  | .addI x => ((s.setI (s.I + byteWord (s.reg x))).setReg VF (indexFlag s.I (s.reg x))).advance 2
  | .ldFont x => (s.setI (glyphAddr (s.reg x))).advance 2
  | .bcd x => (s.storeBytes s.indexAddr (decimalDigits (s.reg x))).advance 2
  | .store x =>
    ((s.storeBytes s.indexAddr (s.regList (regCount x))).setI (s.I + BitVec.ofNat 16 (regCount x))).advance 2
  | .load x =>
    ((s.setRegsFrom 0 (s.MEM.readList s.indexAddr (regCount x))).setI (s.I + BitVec.ofNat 16 (regCount x))).advance 2

section
variable {s : State} {x : Reg}

theorem effect_ldKey_of_none (h : s.pressedKeys = []) : effect (.ldKey x) s = s.noProgress .keyWait := if_pos h

theorem effect_ldKey_of_some (h : s.pressedKeys ≠ []) : effect (.ldKey x) s =
    (s.setReg x (BitVec.ofNat 8 (selectKey s.draws s.pressedKeys))).countDraw.advance 2 := if_neg h

end

theorem exec_of_instrFault_none {i : Instr} {s : State} (h : instrFault i s = none) :
    exec i s = .next (effect i s) := by
  cases i with
  | ret => exact exec_ret_of_nonempty (by simpa [instrFault] using h)
  | call nnn =>
    have hne : s.SP.val ≠ 16 := by simpa [instrFault] using h
    exact exec_call_of_free nnn (Nat.lt_of_le_of_ne s.SP.is_le hne)
  | drw x y n =>
    obtain ⟨hrange, hdraw⟩ := Option.or_eq_none_iff.mp h
    exact exec_drw_of_cells hrange hdraw
  | skp x | sknp x | bcd x | store x | load x =>
    simp only [instrFault] at h
    simp only [exec, execSkp, execSknp, execBcd, execStore, execLoad, h, effect]
  | ldKey x =>
    by_cases hP : s.pressedKeys = []
    · rw [exec_ldKey_of_none hP, effect_ldKey_of_none hP]
    · rw [exec_ldKey_of_some hP, effect_ldKey_of_some hP]
  | _ => rfl

/-- An instruction raises its fault or has its effect, as the state before it decides. -/
theorem exec_iff {i : Instr} {s t : State} :
    exec i s = .next t ↔
      (∃ f, instrFault i s = some f ∧ t = s.raise f) ∨ (instrFault i s = none ∧ t = effect i s) := by
  cases h : instrFault i s with
  | some f => simp [exec_of_instrFault h, eq_comm]
  | none => simp [exec_of_instrFault_none h, eq_comm]

end Sys2Proof.Machine
end

section
/-! What an instruction does not depend on: the control bits, the stack, the registers it does not read (R22, R25,
R31). -/

namespace Sys2Proof.Machine

section
variable {i : Instr} {s s' t : State}

/-- Two states that decide the same fault, whose reports and whose effects stand in a relation, end in it. -/
theorem exec_rel {R : State → State → Prop} (hfault : instrFault i s' = instrFault i s)
    (hraise : ∀ f, R (s.raise f) (s'.raise f)) (heffect : R (effect i s) (effect i s')) (h : exec i s = .next t) :
    ∃ t', exec i s' = .next t' ∧ R t t' := by
  obtain ⟨f, hf, rfl⟩ | ⟨hf, rfl⟩ := exec_iff.mp h
  · exact ⟨_, exec_of_instrFault (hfault.trans hf), hraise f⟩
  · exact ⟨_, exec_of_instrFault_none (hfault.trans hf), heffect⟩

end

/-- A write of several registers passes through a change of the state that one register write passes through. -/
theorem State.setRegsFrom_comm {g : State → State} (hg : ∀ s r v, (g s).setReg r v = g (s.setReg r v)) (s : State)
    (k : Nat) (bytes : List Byte) : (g s).setRegsFrom k bytes = g (s.setRegsFrom k bytes) := by
  induction bytes generalizing s k with
  | nil => rfl
  | cons v bytes ih => rw [State.setRegsFrom, hg, ih, State.setRegsFrom]

/-! The control bits. -/

/-- The state with other values of `paused` and `running`. -/
def State.withControl (s : State) (p r : Bool) : State := { s with paused := p, running := r }

theorem effect_withControl (i : Instr) (s : State) (p r : Bool) :
    effect i (s.withControl p r) = (effect i s).withControl p r := by
  cases i with
  | ldKey x =>
    by_cases hP : s.pressedKeys = []
    · rw [effect_ldKey_of_none hP, effect_ldKey_of_none (s := s.withControl p r) hP]
      rfl
    · rw [effect_ldKey_of_some hP, effect_ldKey_of_some (s := s.withControl p r) hP]
      rfl
  | load x =>
    have hcomm := State.setRegsFrom_comm (g := fun u => u.withControl p r) (fun _ _ _ => rfl) s 0
      (s.MEM.readList s.indexAddr (regCount x))
    exact congrArg (fun u => (u.setI (s.I + BitVec.ofNat 16 (regCount x))).advance 2) hcomm
  | _ => rfl

theorem exec_withControl {i : Instr} {s t : State} (h : exec i s = .next t) (p r : Bool) :
    exec i (s.withControl p r) = .next (t.withControl p r) := by
  have hfault : instrFault i (s.withControl p r) = instrFault i s := by cases i <;> rfl
  obtain ⟨_, h', rfl⟩ := exec_rel (R := fun t u => u = t.withControl p r) hfault (fun _ => rfl)
    (effect_withControl i s p r) h
  exact h'

/-- Settles O23: a fault and a wait leave the keys and the bits, as every effect does, and no instruction reads the
bits. -/
theorem noInstructionTouchesKeysOrControlBits : Obligations.NoInstructionTouchesKeysOrControlBits := by
  refine ⟨fun i s t h => ?_, fun i s p r t h => exec_withControl h p r⟩
  obtain ⟨f, rfl⟩ | rfl | ⟨hkey, hpaused, hrunning, -⟩ := exec_cases i s t h
  · exact ⟨rfl, rfl, rfl⟩
  · exact ⟨rfl, rfl, rfl⟩
  · exact ⟨hkey, hpaused, hrunning⟩

/-! The call stack. -/

/-- The state with another call stack. -/
def State.withStack (s : State) (entries : Vector Word 16) (depth : Fin 17) : State :=
  { s with STACK := entries, SP := depth }

section
variable {i : Instr} {s t : State}

theorem effect_withStack (hret : i ≠ .ret) (hcall : ∀ nnn, i ≠ .call nnn) (s : State) (entries : Vector Word 16)
    (depth : Fin 17) : effect i (s.withStack entries depth) = (effect i s).withStack entries depth := by
  cases i with
  | ret => exact absurd rfl hret
  | call nnn => exact absurd rfl (hcall nnn)
  | ldKey x =>
    by_cases hP : s.pressedKeys = []
    · rw [effect_ldKey_of_none hP, effect_ldKey_of_none (s := s.withStack entries depth) hP]
      rfl
    · rw [effect_ldKey_of_some hP, effect_ldKey_of_some (s := s.withStack entries depth) hP]
      rfl
  | load x =>
    have hcomm := State.setRegsFrom_comm (g := fun u => u.withStack entries depth) (fun _ _ _ => rfl) s 0
      (s.MEM.readList s.indexAddr (regCount x))
    exact congrArg (fun u => (u.setI (s.I + BitVec.ofNat 16 (regCount x))).advance 2) hcomm
  | _ => rfl

theorem instrFault_withStack (hret : i ≠ .ret) (hcall : ∀ nnn, i ≠ .call nnn) (s : State) (entries : Vector Word 16)
    (depth : Fin 17) : instrFault i (s.withStack entries depth) = instrFault i s := by
  cases i with
  | ret => exact absurd rfl hret
  | call nnn => exact absurd rfl (hcall nnn)
  | _ => rfl

theorem exec_withStack (hret : i ≠ .ret) (hcall : ∀ nnn, i ≠ .call nnn) (h : exec i s = .next t)
    (entries : Vector Word 16) (depth : Fin 17) :
    exec i (s.withStack entries depth) = .next (t.withStack entries depth) := by
  obtain ⟨_, h', rfl⟩ := exec_rel (R := fun t u => u = t.withStack entries depth)
    (instrFault_withStack hret hcall s entries depth) (fun _ => rfl) (effect_withStack hret hcall s entries depth) h
  exact h'

/-- Run on its own stack, such an instruction must answer that stack again. -/
theorem exec_stack (hret : i ≠ .ret) (hcall : ∀ nnn, i ≠ .call nnn) (h : exec i s = .next t) :
    t.STACK = s.STACK ∧ t.SP = s.SP := by
  have hown : exec i s = .next (t.withStack s.STACK s.SP) := exec_withStack hret hcall h s.STACK s.SP
  rw [Host.Outcome.next.inj (h.symm.trans hown)]
  exact ⟨rfl, rfl⟩

end

/-- Settles O24: an instruction that is neither passes through a change of the stack, so it keeps its own. -/
theorem onlyCallAndReturnUseTheStack : Obligations.OnlyCallAndReturnUseTheStack := by
  refine ⟨fun i s t h hchanged => ?_, fun i s k d hret hcall t h => exec_withStack hret hcall h k d⟩
  by_contra hnot
  obtain ⟨hret, hcall⟩ := not_or.mp hnot
  obtain ⟨hstack, hsp⟩ := exec_stack hret (fun nnn e => hcall ⟨nnn, e⟩) h
  exact hchanged.elim (· hstack) (· hsp)

/-! Registers. -/

theorem mem_regsUpTo {x r : Reg} : r ∈ regsUpTo x ↔ r.toNat ≤ x.toNat := by
  rw [regsUpTo, List.mem_map]
  constructor
  · rintro ⟨k, hk, rfl⟩
    rw [BitVec.toNat_ofNat]
    exact (Nat.mod_le k _).trans (Nat.le_of_lt_succ (List.mem_range.mp hk))
  · exact fun h => ⟨r.toNat, List.mem_range.mpr (Nat.lt_succ_of_le h),
      (BitVec.ofNat_toNat _ _).trans (BitVec.setWidth_eq r)⟩

section
variable {i : Instr} {s : State} {r : Reg}

/-- The writes column of R22. -/
theorem reg_effect_of_not_mem (h : r ∉ writesRegs i) : (effect i s).reg r = s.reg r := by
  cases i with
  | ldImm x _ | addImm x _ | ldReg x _ | orReg x _ | andReg x _ | xorReg x _ | rnd x _ | ldFromDT x =>
    exact s.reg_setReg_of_ne (List.ne_of_not_mem_cons h) _
  | ldKey x =>
    by_cases hP : s.pressedKeys = []
    · rw [effect_ldKey_of_none hP]
      rfl
    · rw [effect_ldKey_of_some hP]
      exact s.reg_setReg_of_ne (List.ne_of_not_mem_cons h) _
  | addReg x _ | subReg x _ | subnReg x _ | shr x _ | shl x _ =>
    have hVF : r ≠ VF := List.ne_of_not_mem_cons (List.not_mem_of_not_mem_cons h)
    exact (State.reg_setReg_of_ne _ hVF _).trans (s.reg_setReg_of_ne (List.ne_of_not_mem_cons h) _)
  | drw _ _ _ | addI _ => exact State.reg_setReg_of_ne _ (List.ne_of_not_mem_cons h) _
  | load x => exact (s.reg_setRegsFrom_readList s.indexAddr x r).trans (if_neg (mt mem_regsUpTo.mpr h))
  | _ => rfl

theorem reg_of_exec {t : State} (hexec : exec i s = .next t) (h : r ∉ writesRegs i) : t.reg r = s.reg r := by
  obtain ⟨f, -, rfl⟩ | ⟨-, rfl⟩ := exec_iff.mp hexec
  · rfl
  · exact reg_effect_of_not_mem h

end

/-- The second state is the first but for the value of one register. -/
def VariesAt (r : Reg) (s t : State) : Prop := ∃ v, t = s.setReg r v

section
variable {r : Reg} {s t : State}

theorem agreeBut_of_variesAt (h : VariesAt r s t) : AgreeBut r (.next s) (.next t) := by
  obtain ⟨v, rfl⟩ := h
  exact ⟨fun q hq => s.reg_setReg_of_ne hq v, rfl⟩

/-- The same write to both keeps them so: to another register the two writes commute, to the one that varies the new
value covers the old ones. -/
theorem VariesAt.setReg (h : VariesAt r s t) (q : Reg) (w : Byte) : VariesAt r (s.setReg q w) (t.setReg q w) := by
  obtain ⟨v, rfl⟩ := h
  by_cases hq : r = q
  · subst hq
    exact ⟨w, by rw [State.setReg_setReg_same, State.setReg_setReg_same]⟩
  · exact ⟨v, s.setReg_setReg_comm hq v w⟩

theorem VariesAt.setRegsFrom (h : VariesAt r s t) (k : Nat) (bytes : List Byte) :
    VariesAt r (s.setRegsFrom k bytes) (t.setRegsFrom k bytes) := by
  induction bytes generalizing s t k with
  | nil => exact h
  | cons v bytes ih => exact ih (h.setReg _ v) (k + 1)

theorem VariesAt.advance (h : VariesAt r s t) (k : Nat) : VariesAt r (s.advance k) (t.advance k) := by
  obtain ⟨v, rfl⟩ := h
  exact ⟨v, rfl⟩

theorem VariesAt.countDraw (h : VariesAt r s t) : VariesAt r s.countDraw t.countDraw := by
  obtain ⟨v, rfl⟩ := h
  exact ⟨v, rfl⟩

theorem VariesAt.setI (h : VariesAt r s t) (a : Word) : VariesAt r (s.setI a) (t.setI a) := by
  obtain ⟨v, rfl⟩ := h
  exact ⟨v, rfl⟩

theorem VariesAt.toggleCells (h : VariesAt r s t) (cells : List Nat) :
    VariesAt r (s.toggleCells cells) (t.toggleCells cells) := by
  obtain ⟨v, rfl⟩ := h
  exact ⟨v, rfl⟩

theorem State.regList_regCount (s : State) (x : Reg) : s.regList (regCount x) = (regsUpTo x).map s.reg := by
  rw [regsUpTo, List.map_map]
  rfl

end

section
variable {i : Instr} {s : State} {r : Reg} {v : Byte}

theorem instrFault_setReg (hread : ∀ q ∈ readsRegs i, (s.setReg r v).reg q = s.reg q) :
    instrFault i (s.setReg r v) = instrFault i s := by
  cases i with
  | drw x y n =>
    simp only [readsRegs, List.forall_mem_cons] at hread
    simp only [instrFault, State.drawCells, hread]
    rfl
  | skp x | sknp x => exact congrArg keyFault (hread x List.mem_cons_self)
  | _ => rfl

/-- The reads column of R22. -/
theorem variesAt_effect (hread : ∀ q ∈ readsRegs i, (s.setReg r v).reg q = s.reg q) :
    VariesAt r (effect i s) (effect i (s.setReg r v)) := by
  have hs : VariesAt r s (s.setReg r v) := ⟨v, rfl⟩
  cases i with
  | cls | ret | jp _ | call _ | ldI _ => exact ⟨v, rfl⟩
  | seImm x _ | sneImm x _ | seReg x _ | sneReg x _ | jpV0 _ | skp x | sknp x | ldDT x | ldST x | ldFont x | bcd x =>
    simp only [readsRegs, List.forall_mem_cons] at hread
    simp only [effect, hread]
    exact ⟨v, rfl⟩
  | ldImm x _ | ldFromDT x => exact (hs.setReg x _).advance 2
  | rnd x _ => exact (hs.setReg x _).countDraw.advance 2
  | addImm x _ | ldReg x _ | orReg x _ | andReg x _ | xorReg x _ =>
    simp only [readsRegs, List.forall_mem_cons] at hread
    simp only [effect, hread]
    exact (hs.setReg x _).advance 2
  | addReg x _ | subReg x _ | subnReg x _ | shr x _ | shl x _ =>
    simp only [readsRegs, List.forall_mem_cons] at hread
    simp only [effect, hread]
    exact ((hs.setReg x _).setReg VF _).advance 2
  | drw x y n =>
    simp only [readsRegs, List.forall_mem_cons] at hread
    simp only [effect, State.drawCells, hread]
    exact ((hs.toggleCells _).setReg VF _).advance 2
  | addI x =>
    simp only [readsRegs, List.forall_mem_cons] at hread
    simp only [effect, hread]
    exact ((hs.setI _).setReg VF _).advance 2
  | ldKey x =>
    by_cases hP : s.pressedKeys = []
    · rw [effect_ldKey_of_none hP, effect_ldKey_of_none (s := s.setReg r v) hP]
      exact ⟨v, rfl⟩
    · rw [effect_ldKey_of_some hP, effect_ldKey_of_some (s := s.setReg r v) hP]
      exact (hs.setReg x _).countDraw.advance 2
  | store x =>
    have hlist : (s.setReg r v).regList (regCount x) = s.regList (regCount x) := by
      rw [State.regList_regCount, State.regList_regCount]
      exact List.map_congr_left hread
    simp only [effect, hlist]
    exact ⟨v, rfl⟩
  | load x => exact ((hs.setRegsFrom 0 _).setI _).advance 2

theorem agreeBut_exec (h : r ∉ readsRegs i) (s : State) (v : Byte) : AgreeBut r (exec i s) (exec i (s.setReg r v)) := by
  have hread : ∀ q ∈ readsRegs i, (s.setReg r v).reg q = s.reg q :=
    fun q hq => s.reg_setReg_of_ne (ne_of_mem_of_not_mem hq h) v
  obtain ⟨t, ht⟩ := exec_answers_next i s
  obtain ⟨u, hu, hvaries⟩ := exec_rel (R := VariesAt r) (instrFault_setReg hread) (fun _ => ⟨v, rfl⟩)
    (variesAt_effect hread) ht
  rw [ht, hu]
  exact agreeBut_of_variesAt hvaries

end

/-- Settles O21: each column of the table by the effects of the instructions. -/
theorem registerAccessIsTheTable : Obligations.RegisterAccessIsTheTable :=
  ⟨fun _ _ _ hexec _ h => reg_of_exec hexec h, fun _ s _ v h => agreeBut_exec h s v⟩

end Sys2Proof.Machine
end

section
/-! The value of pc after an instruction, by the cases of R84. -/

namespace Sys2Proof.Machine

theorem State.pcPlus_skipIf_or (s : State) (c : Bool) : PcPlus 2 s (s.skipIf c) ∨ PcPlus 4 s (s.skipIf c) := by
  cases c with
  | false => exact .inl (s.pcPlus_advance 2)
  | true => exact .inr (s.pcPlus_advance 4)

/-- Settles O25: a fault keeps pc; past it each effect ends by its own write of pc, but for the wait of FX0A. -/
theorem pcIsSetByExactlyOneCase : Obligations.PcIsSetByExactlyOneCase := by
  intro i s t hexec
  obtain ⟨f, -, rfl⟩ | ⟨-, rfl⟩ := exec_iff.mp hexec
  · exact ⟨fun _ => rfl, fun hdone => nomatch hdone⟩
  · cases i with
    | jp nnn | call nnn => exact ⟨fun hnot => absurd rfl hnot, fun _ => toNat_addrWord nnn⟩
    | jpV0 nnn => exact ⟨fun hnot => absurd rfl hnot, fun _ => toNat_addrWord_add_byteWord nnn _⟩
    | ret => exact ⟨fun hnot => absurd rfl hnot, fun _ => BitVec.toNat_add _ _⟩
    | seImm x _ | sneImm x _ | seReg x _ | sneReg x _ | skp x | sknp x =>
      exact ⟨fun hnot => absurd rfl hnot, fun _ => s.pcPlus_skipIf_or _⟩
    | ldKey x =>
      by_cases hP : s.pressedKeys = []
      · rw [effect_ldKey_of_none (s := s.beginExec) hP]
        exact ⟨fun _ => rfl, fun hdone => nomatch hdone⟩
      · rw [effect_ldKey_of_some (s := s.beginExec) hP]
        exact ⟨fun hnot => absurd rfl hnot, fun _ => s.pcPlus_advance 2⟩
    | load x =>
      simp only [effect]
      rw [State.setRegsFrom_frame]
      exact ⟨fun hnot => absurd rfl hnot, fun _ => s.pcPlus_advance 2⟩
    | _ => exact ⟨fun hnot => absurd rfl hnot, fun _ => s.pcPlus_advance 2⟩

end Sys2Proof.Machine
end
